-- ==== Sys2Proof/Word.lean ====
section
/-! DEFINITION. The widths of the block's words: 10_state.md R20 to R31 give the registers' widths, 00_scope.md R11
the counter's, the millisecond input's and the data port's. Only what the spec numbers or shifts as bits is a bit
vector. -/

namespace Sys2Proof

/-- A word of the host port, and a value of the millisecond time (R11, R42, R43). -/
abbrev Word := BitVec 32

/-- One of the five frame bytes (42_frame.md R132). -/
abbrev Byte := BitVec 8

/-- The 40 bits of a frame, first bit received in bit 39 (20_memory.md R54). -/
abbrev Frame := BitVec 40

/-- A quantity in tenths: `HUM` unsigned, `TEMP` two's complement (R23, R24). -/
abbrev Tenths := BitVec 16

/-- A count of ticks in `CNT`, whose width `CNT_W` is 16 (R11). -/
abbrev Ticks := BitVec 16

end Sys2Proof
end

