-- ==== Sys2Proof/Syntax.lean ====
section
/-! DEFINITION. The instructions: one constructor per row of spec/opcode_table.json, that is the three host commands
(40_commands.md) and the eight micro-operations a tick executes (30_encoding.md R74). -/

namespace Sys2Proof

/-- The whole opcode table (30_encoding.md R71 and R74). -/
inductive Instr where
  /-- `NOP`, command `OP` = 0 (40_commands.md R92). -/
  | nop
  /-- `SETUP m`, command `OP` = 1, `m` the 2-bit model code `ARG` (R72, R93); the code 3 is reserved (R73). -/
  | setup (m : BitVec 2)
  /-- `READ`, command `OP` = 2 (R94). -/
  | read
  /-- `IDLE`, `PHASE` = 0 (41_sampler.md R112). -/
  | idle
  /-- `WAKE`, `PHASE` = 1 (R113). -/
  | wake
  /-- `RESP`, `PHASE` = 2 (R114). -/
  | resp
  /-- `ACKL`, `PHASE` = 3 (R115). -/
  | ackl
  /-- `ACKH`, `PHASE` = 4 (R116). -/
  | ackh
  /-- `BITL`, `PHASE` = 5 (R117). -/
  | bitl
  /-- `BITH`, `PHASE` = 6, with the `SHIFT` of 42_frame.md R130 (R118). -/
  | bith
  /-- `CHECK`, `PHASE` = 7 (43_check_convert.md R140). -/
  | check
  deriving DecidableEq, Repr

end Sys2Proof
end

