-- ==== Sys2Proof/WellFormed.lean ====
section
/-! DEFINITION. Which instruction terms are well formed: an operand code the spec reserves is not. -/

namespace Sys2Proof

/-- `SETUP` with the model code 3 is reserved (30_encoding.md R73); every other term is well formed. A reserved
`SETUP` still has the meaning the spec gives it, which is to change nothing (40_commands.md R93 corner (d)). -/
def Instr.wellFormed : Instr → Bool
  | .nop => true
  | .setup m => m != 3
  | .read => true
  | .idle => true
  | .wake => true
  | .resp => true
  | .ackl => true
  | .ackh => true
  | .bitl => true
  | .bith => true
  | .check => true

end Sys2Proof
end

