-- ==== Sys2Proof/Decode.lean ====
section
/-! DEFINITION. The decoder, total on every command word and every phase code, and after it the encoder, both written
from 30_encoding.md R70 to R74. A word of the host port has no byte order (20_memory.md R56), so a command is decoded
from its 32 bits as one number. -/

namespace Sys2Proof

/-- What an instruction is read from: a command word written to `CMD` (R70), or the 3-bit `PHASE` code (R74). -/
inductive Code where
  | command (w : Word)
  | phase (p : BitVec 3)
  deriving DecidableEq, Repr

/-- Why a code is no instruction. -/
inductive DecodeError where
  /-- A command word whose `OP` is in 0x3 to 0xF is reserved (R71, R73). -/
  | reservedOp (op : BitVec 4)
  deriving DecidableEq, Repr

/-- `OP`, bits 3:0 of a command word (R70). -/
def opField (w : Word) : BitVec 4 := w.extractLsb' 0 4

/-- `ARG`, bits 5:4 of a command word (R70, R72). -/
def argField (w : Word) : BitVec 2 := w.extractLsb' 4 2

/-- R71 with R72 and R73: bits 31:6, and `ARG` outside `SETUP`, are not looked at. -/
def decodeCommand (w : Word) : Except DecodeError Instr :=
  if opField w = 0 then .ok .nop
  else if opField w = 1 then .ok (.setup (argField w))
  else if opField w = 2 then .ok .read
  else .error (.reservedOp (opField w))

/-- R74: all eight phase codes are used. -/
def decodePhase (p : BitVec 3) : Instr :=
  if p = 0 then .idle
  else if p = 1 then .wake
  else if p = 2 then .resp
  else if p = 3 then .ackl
  else if p = 4 then .ackh
  else if p = 5 then .bitl
  else if p = 6 then .bith
  else .check

/-- The decoder. -/
def decode : Code → Except DecodeError Instr
  | .command w => decodeCommand w
  | .phase p => .ok (decodePhase p)

/-- The code of an instruction, the bits the block ignores written 0 ("software should write 0", R70). -/
def encode : Instr → Code
  | .nop => .command 0x00000000
  | .setup m => .command (m.setWidth 32 <<< 4 ||| 0x00000001)
  | .read => .command 0x00000002
  | .idle => .phase 0
  | .wake => .phase 1
  | .resp => .phase 2
  | .ackl => .phase 3
  | .ackh => .phase 4
  | .bitl => .phase 5
  | .bith => .phase 6
  | .check => .phase 7

/-- The bits of a command word that its row decodes: `OP`, and for `SETUP` also `ARG` (R70). A phase code has no bits
that are not decoded, and no command word is one. -/
def decodedBits : Instr → Word
  | .nop => 0x0000000F
  | .setup _ => 0x0000003F
  | .read => 0x0000000F
  | .idle => 0x00000007
  | .wake => 0x00000007
  | .resp => 0x00000007
  | .ackl => 0x00000007
  | .ackh => 0x00000007
  | .bitl => 0x00000007
  | .bith => 0x00000007
  | .check => 0x00000007

/-- A row's bits, numbered as spec/opcode_table.json numbers them, as a code: the `CMD` rows have 32 bits, the
`PHASE` rows 3, in whole bytes 8, of which bits 7:3 are no part of the code. notes/assumptions/12.md. -/
def tableCode (nbits w : Nat) : Option Code :=
  if nbits = 32 then some (.command (BitVec.ofNat 32 w))
  else if 0 < nbits ∧ nbits ≤ 8 then some (.phase (BitVec.ofNat 3 w))
  else none

/-- The instruction the decoder reads from a row's bits; none where it refuses. -/
def decodeTableWord (nbits w : Nat) : Option Instr :=
  match tableCode nbits w with
  | some c => (decode c).toOption
  | none => none

end Sys2Proof
end

