-- ==== Sys2Proof/Config.lean ====
section
/-! DEFINITION. What is fixed when the block is instantiated: the configuration record `cfg` of 00_scope.md section 4
(R5 to R11), its recommended values, the constraints the spec puts on it, and the model's one free value. -/

namespace Sys2Proof

/-- The source's `SensorModel`, exactly three values (00_scope.md R2). The code 3 is reserved and never stored
(10_state.md R28, 93_implementation_defined.md U6), so the field `MODEL` is this type. -/
inductive SensorModel where
  | autoDetect
  | dht11
  | dht22Family
  deriving DecidableEq, Repr

/-- The configuration record `cfg` (00_scope.md section 4). Tick counts and milliseconds are numbers, the four
temperature bounds signed tenths of a degree. -/
structure Cfg where
  /-- `TICK_NS` (R5) -/
  tickNs : Nat
  /-- `T_WAKE_11` (R6) -/
  tWake11 : Nat
  /-- `T_WAKE_22` (R6) -/
  tWake22 : Nat
  /-- `T_WAKE_AUTO` (R6) -/
  tWakeAuto : Nat
  /-- `TMO_RESP` (R7) -/
  tmoResp : Nat
  /-- `TMO_ACKL` (R7) -/
  tmoAckl : Nat
  /-- `TMO_ACKH` (R7) -/
  tmoAckh : Nat
  /-- `TMO_BITL` (R7) -/
  tmoBitl : Nat
  /-- `TMO_BITH` (R7) -/
  tmoBith : Nat
  /-- `T_BIT` (R8) -/
  tBit : Nat
  /-- `MIN_MS_11` (R9) -/
  minMs11 : Nat
  /-- `MIN_MS_22` (R9) -/
  minMs22 : Nat
  /-- `MIN_MS_AUTO` (R9) -/
  minMsAuto : Nat
  /-- `DHT11_TENTHS` (R10) -/
  dht11Tenths : Bool
  /-- `HMAX` (R10) -/
  hMax : Nat
  /-- `TMIN_11` (R10) -/
  tMin11 : Int
  /-- `TMAX_11` (R10) -/
  tMax11 : Int
  /-- `TMIN_22` (R10) -/
  tMin22 : Int
  /-- `TMAX_22` (R10) -/
  tMax22 : Int
  deriving DecidableEq, Repr

/-- The values the spec recommends (the summary table of 00_scope.md section 4). The four temperature bounds are
general knowledge in the spec itself (93_implementation_defined.md U9, G1). PRESUMED, notes/assumptions/6.md. -/
def Cfg.default : Cfg where
  tickNs := 1000
  tWake11 := 18000
  tWake22 := 1000
  tWakeAuto := 18000
  tmoResp := 100
  tmoAckl := 100
  tmoAckh := 100
  tmoBitl := 100
  tmoBith := 100
  tBit := 28
  minMs11 := 1000
  minMs22 := 2000
  minMsAuto := 2000
  dht11Tenths := true
  hMax := 1000
  tMin11 := 0
  tMax11 := 500
  tMin22 := -400
  tMax22 := 1250

/-- The constraints of 00_scope.md R6 to R11. R7 gives `TMO_ACKL >= 80`, `TMO_ACKH >= 80`, `TMO_BITL >= 50` at the
nominal tick of 1000 ns; for another tick they scale with it (R5): DEDUCED, notes/assumptions/5.md. -/
abbrev Cfg.Ok (c : Cfg) : Prop :=
  (18000000 ≤ c.tWake11 * c.tickNs ∧ 1000000 ≤ c.tWake22 * c.tickNs ∧ c.tWake11 ≤ c.tWakeAuto ∧ c.tWake22 ≤ c.tWakeAuto) ∧
  (80000 ≤ c.tmoAckl * c.tickNs ∧ 80000 ≤ c.tmoAckh * c.tickNs ∧ 50000 ≤ c.tmoBitl * c.tickNs ∧ 1 ≤ c.tmoResp) ∧
  (1 ≤ c.tBit ∧ c.tBit < c.tmoBith) ∧
  (c.tMin11 ≤ c.tMax11 ∧ c.tMin22 ≤ c.tMax22 ∧ -32768 ≤ c.tMin11 ∧ c.tMax11 ≤ 32767 ∧ -32768 ≤ c.tMin22 ∧ c.tMax22 ≤ 32767) ∧
  (c.tWake11 < 65536 ∧ c.tWake22 < 65536 ∧ c.tWakeAuto < 65536 ∧ c.tmoResp < 65536 ∧ c.tmoAckl < 65536 ∧
    c.tmoAckh < 65536 ∧ c.tmoBitl < 65536 ∧ c.tmoBith < 65536 ∧ c.tBit < 65536)

/-- FREE VALUE: what `rdata` carries at an edge with a bus WRITE. 10_state.md R43 gives `rdata` for a read and for no
access, 70_reset_and_hazards.md R180 for reset, and none of them for a write; `n` numbers the writes.
DESIGN CHOICE, notes/assumptions/3.md. -/
opaque Config.rdataOnWrite (n : Nat) : Word

end Sys2Proof
end

