-- ==== Sys2Proof/Machine/State.lean ====
section
/-! DEFINITION. The machine's state: the thirteen elements of 10_state.md R20 (176 bits), the configuration record of
the instance, and what the model needs beside them to be one function of one state (the input ports, the edges still
to come, the word `rdata` carried, the number of the next free value). Its reset value, and why a step can stop. -/

namespace Sys2Proof.Machine

/-- The states of the sequencer (10_state.md R29): an enumeration, not an address; all eight codes are used. -/
inductive Phase where
  | idle
  | wake
  | resp
  | ackl
  | ackh
  | bitl
  | bith
  | check
  deriving DecidableEq, Repr

/-- The source's `ReadStatus` (R27); the code 3 is never produced (93_implementation_defined.md U6). -/
inductive ReadStatus where
  | none
  | timeout
  | checksumError
  deriving DecidableEq, Repr

/-- The two error conditions of 60_exceptions.md R160. -/
inductive ErrorKind where
  | timeout
  | checksumError
  deriving DecidableEq, Repr

/-- The input ports at one rising edge of `clk` (R40 to R43). -/
structure Edge where
  rst : Bool
  sel : Bool
  wr : Bool
  addr : BitVec 5
  wdata : Word
  tickEn : Bool
  lineIn : Bool
  nowMs : Word
  deriving DecidableEq, Repr

/-- Ports at rest: no reset, no access, no tick, the line pulled up. -/
def Edge.rest : Edge where
  rst := false
  sel := false
  wr := false
  addr := 0
  wdata := 0
  tickEn := false
  lineIn := true
  nowMs := 0

/-- The state. The first thirteen fields are the spec's; the other five are the model's. -/
structure State where
  /-- `SR`, the frame being received (R21) -/
  sr : Frame
  /-- `FRAME`, the last frame that passed validation (R22) -/
  frame : Frame
  /-- `HUM`, unsigned tenths of a percent (R23) -/
  hum : Tenths
  /-- `TEMP`, signed tenths of a degree (R24) -/
  temp : Tenths
  /-- `CNT`, the tick counter (R25) -/
  cnt : Ticks
  /-- `LAST_MS`, the time of the last accepted `READ` (R26) -/
  lastMs : Word
  /-- `PHASE` (R29) -/
  phase : Phase
  /-- `BITCNT` (R30) -/
  bitcnt : BitVec 6
  /-- `RSTAT` (R27) -/
  rstat : ReadStatus
  /-- `MODEL` (R28) -/
  model : SensorModel
  /-- `SKIP` (R31) -/
  skip : Bool
  /-- `ARMED` (R31) -/
  armed : Bool
  /-- `VALID` (R31) -/
  valid : Bool
  /-- the instance's parameters, never written (00_scope.md section 4); notes/assumptions/4.md -/
  cfg : Cfg
  /-- the input ports at the edge being executed, or last executed; notes/assumptions/2.md -/
  port : Edge
  /-- the input ports at the edges to come, soonest first; notes/assumptions/1.md -/
  pending : List Edge
  /-- what the output `rdata` carried at the last edge (R43); notes/assumptions/3.md -/
  rdata : Word
  /-- the number of the next free value; notes/assumptions/3.md -/
  freeCount : Nat
  deriving DecidableEq, Repr

/-- The state right after reset: the table of R46. The five fields of the model are DESIGN CHOICE
(notes/assumptions/1.md to 4.md); `rdata` is 0 at an edge with `rst` = 1 (70_reset_and_hazards.md R180). -/
def State.reset : State where
  sr := 0
  frame := 0
  hum := 0
  temp := 0
  cnt := 0
  lastMs := 0
  phase := .idle
  bitcnt := 0
  rstat := .none
  model := .autoDetect
  skip := false
  armed := true
  valid := false
  cfg := Cfg.default
  port := Edge.rest
  pending := []
  rdata := 0
  freeCount := 0

/-- Why the machine stops with a fault: never. `Timeout` and `ChecksumError` end a transaction, not the machine
(60_exceptions.md R163, R166), and no other condition exists (R160). -/
inductive Fault
  deriving DecidableEq, Repr

/-- Why an instruction has no meaning. -/
inductive Refusal where
  /-- Raised by an arm of `exec` whose instruction has no meaning yet; no arm does. Safe: the run stops. -/
  | notModelled (mnemonic : String)
  deriving DecidableEq, Repr

end Sys2Proof.Machine
end

