-- ==== Sys2Proof/Machine/Operands.lean ====
section
/-! DEFINITION. The operand forms: the enumerations' codes (30_encoding.md R79), the register window's word select
(20_memory.md R50), the parameters a model selects (00_scope.md R6, R9), the bytes of a frame (42_frame.md R132), the
bit a pulse decodes to (30_encoding.md R77), and the two frame-to-value conversions (43_check_convert.md R143, R144). -/

namespace Sys2Proof.Machine

/-- The code of a sensor model (10_state.md R28). -/
def modelCode : SensorModel → BitVec 2
  | .autoDetect => 0
  | .dht11 => 1
  | .dht22Family => 2

/-- The model of a code; the code 3 is reserved (R28, R72). -/
def modelOfCode (m : BitVec 2) : Option SensorModel :=
  if m = 0 then some .autoDetect
  else if m = 1 then some .dht11
  else if m = 2 then some .dht22Family
  else none

/-- The code of a read status (R27). -/
def statusCode : ReadStatus → BitVec 2
  | .none => 0
  | .timeout => 1
  | .checksumError => 2

/-- The code of a phase (R29). -/
def phaseCode : Phase → BitVec 3
  | .idle => 0
  | .wake => 1
  | .resp => 2
  | .ackl => 3
  | .ackh => 4
  | .bitl => 5
  | .bith => 6
  | .check => 7

/-- The phase of a code (R29). -/
def phaseOfCode (p : BitVec 3) : Phase :=
  if p = 0 then .idle
  else if p = 1 then .wake
  else if p = 2 then .resp
  else if p = 3 then .ackl
  else if p = 4 then .ackh
  else if p = 5 then .bitl
  else if p = 6 then .bith
  else .check

/-- `addr[4:2]`, the word of the window; `addr[1:0]` is ignored (20_memory.md R50, R57). -/
def wordSelect (addr : BitVec 5) : BitVec 3 := addr.extractLsb' 2 3

/-- `T_WAKE(m)` (00_scope.md R6). -/
def wakeTicks (c : Cfg) : SensorModel → Nat
  | .autoDetect => c.tWakeAuto
  | .dht11 => c.tWake11
  | .dht22Family => c.tWake22

/-- `MIN_MS(m)` (R9). -/
def minPeriod (c : Cfg) : SensorModel → Nat
  | .autoDetect => c.minMsAuto
  | .dht11 => c.minMs11
  | .dht22Family => c.minMs22

/-- `byte(0)` = `F[39:32]` (42_frame.md R132). -/
def byte0 (f : Frame) : Byte := f.extractLsb' 32 8
/-- `byte(1)` = `F[31:24]`. -/
def byte1 (f : Frame) : Byte := f.extractLsb' 24 8
/-- `byte(2)` = `F[23:16]`. -/
def byte2 (f : Frame) : Byte := f.extractLsb' 16 8
/-- `byte(3)` = `F[15:8]`. -/
def byte3 (f : Frame) : Byte := f.extractLsb' 8 8
/-- `byte(4)` = `F[7:0]`. -/
def byte4 (f : Frame) : Byte := f.extractLsb' 0 8

/-- The bit a high pulse of `width` ticks decodes to: 1 when the width is above `T_BIT` (30_encoding.md R77). -/
def pulseBit (c : Cfg) (width : Ticks) : Bool := decide (c.tBit < width.toNat)

/-- `{ SR[38:0], bit }` in the spec's other form `((SR << 1) | bit) mod 2^40` (42_frame.md R130). -/
def shiftIn (sr : Frame) (bit : Bool) : Frame := (sr <<< 1) ||| (BitVec.ofBool bit).setWidth 40

/-- `neg16(v)` = `(0 - v) mod 2^16` (00_scope.md section 5). -/
def neg16 (v : Tenths) : Tenths := 0 - v

/-- A humidity and a temperature in tenths (43_check_convert.md R143, R146). -/
structure Reading where
  h : Tenths
  t : Tenths
  deriving DecidableEq, Repr

/-- A sign-and-magnitude temperature as two's complement (R143, R144). -/
def signedTenths (negative : Bool) (mag : Tenths) : Tenths := if negative then neg16 mag else mag

/-- `conv22(F)` (R143). -/
def conv22 (f : Frame) : Reading where
  h := byte0 f ++ byte1 f
  t := signedTenths ((byte2 f).getLsbD 7) (((byte2 f).extractLsb' 0 7 ++ byte3 f).setWidth 16)

/-- The tenths of the DHT11 temperature, `b3[6:0]` unclamped when `DHT11_TENTHS` = 1 (R144). -/
def tenths11 (c : Cfg) (f : Frame) : Nat := if c.dht11Tenths then ((byte3 f).extractLsb' 0 7).toNat else 0

/-- `conv11(F)` (R144). The sums are below 2678, so nothing is lost at 16 bits (R151). -/
def conv11 (c : Cfg) (f : Frame) : Reading where
  h := BitVec.ofNat 16 ((byte0 f).toNat * 10)
  t := signedTenths ((byte3 f).getLsbD 7) (BitVec.ofNat 16 ((byte2 f).toNat * 10 + tenths11 c f))

end Sys2Proof.Machine
end

