-- ==== Sys2Proof/Machine/Flags.lean ====
section
/-! DEFINITION. The flags and tests the rules compute: `BUSY` and the Moore outputs (10_state.md R31, R44), the
`STATUS` word (R33), the rate-limit gate (40_commands.md R95), the checksum (43_check_convert.md R141) and the two
plausibility tests (R147, R148). -/

namespace Sys2Proof.Machine

/-- `BUSY` = (`PHASE` != `IDLE`), also the output `busy` (R31, R44). -/
def busy (s : State) : Bool := s.phase != .idle

/-- The output `line_oe`: the block drives the line low exactly in `WAKE` (R44). -/
def lineOe (s : State) : Bool := s.phase == .wake

/-- The output `line_pu` (R44). -/
def linePu (s : State) : Bool := s.phase != .wake

/-- The phases that sample the line. -/
def sampling : Phase → Bool
  | .idle => false
  | .wake => false
  | .resp => true
  | .ackl => true
  | .ackh => true
  | .bitl => true
  | .bith => true
  | .check => false

/-- The output `crit` (R44; 41_sampler.md R120). -/
def crit (s : State) : Bool := sampling s.phase

/-- A flag as a word. -/
def flagWord (b : Bool) : Word := (BitVec.ofBool b).setWidth 32

/-- The `STATUS` word, the one expression of R33. -/
def statusWord (s : State) : Word :=
  (statusCode s.rstat).setWidth 32 ||| flagWord (busy s) <<< 2 ||| flagWord s.skip <<< 3 |||
    (modelCode s.model).setWidth 32 <<< 4 ||| flagWord s.armed <<< 6 ||| flagWord s.valid <<< 7 |||
    (phaseCode s.phase).setWidth 32 <<< 8 ||| s.bitcnt.setWidth 32 <<< 11

/-- `elapsed` = `(now - LAST_MS) mod 2^32` (40_commands.md R95). -/
def elapsed (s : State) : Word := s.port.nowMs - s.lastMs

/-- The rate-limit gate (R95). -/
def gateOpen (s : State) : Bool := s.armed || decide (minPeriod s.cfg s.model ≤ (elapsed s).toNat)

/-- `checksum_ok(F)`: the sum has 10 bits, its low 8 are compared (43_check_convert.md R141). -/
def checksumOk (f : Frame) : Bool :=
  ((byte0 f).toNat + (byte1 f).toNat + (byte2 f).toNat + (byte3 f).toNat) % 256 == (byte4 f).toNat

/-- `plausible22` (R147). -/
def plausible22 (c : Cfg) (r : Reading) : Bool :=
  decide (r.h.toNat ≤ c.hMax) && decide (c.tMin22 ≤ r.t.toInt) && decide (r.t.toInt ≤ c.tMax22)

/-- `plausible11` (R148). -/
def plausible11 (c : Cfg) (r : Reading) : Bool :=
  decide (r.h.toNat ≤ c.hMax) && decide (c.tMin11 ≤ r.t.toInt) && decide (r.t.toInt ≤ c.tMax11)

end Sys2Proof.Machine
end

