-- ==== Sys2Proof/Machine/Ops.lean ====
section
/-! DEFINITION. The shared operations: what a window word reads as (20_memory.md R52), the edge of reset
(70_reset_and_hazards.md R180), the error exit (60_exceptions.md R163, the only exception entry; R166: there is no
return), the wait template (41_sampler.md R111), the shift (42_frame.md R130, R131), the commit
(43_check_convert.md R150) and the idle guard of a command (40_commands.md R91). -/

namespace Sys2Proof.Machine

/-- `MemRead(addr, 4)` (20_memory.md R52): a view of the registers; there is no memory behind the window (R36). -/
def readWindow (s : State) (addr : BitVec 5) : Word :=
  if wordSelect addr = 1 then statusWord s
  else if wordSelect addr = 2 then s.frame.extractLsb' 0 32
  else if wordSelect addr = 3 then (s.frame.extractLsb' 32 8).setWidth 32
  else if wordSelect addr = 4 then s.hum.setWidth 32
  else if wordSelect addr = 5 then s.temp.signExtend 32
  else if wordSelect addr = 6 then s.lastMs
  else 0

/-- An edge with `rst` = 1 gives every element of R46 its reset value (R180). The parameters, the inputs and the
number of the next free value are no state of the block (notes/assumptions/14.md). -/
def applyReset (s : State) : State :=
  { State.reset with cfg := s.cfg, port := s.port, pending := s.pending, freeCount := s.freeCount }

/-- The status an error leaves (60_exceptions.md R160). -/
def errorStatus : ErrorKind → ReadStatus
  | .timeout => .timeout
  | .checksumError => .checksumError

/-- `raise E`, the error exit (R163): the code is left in `RSTAT`, the sequencer is idle, nothing else changes. -/
def raiseError (e : ErrorKind) (s : State) : State :=
  { s with rstat := errorStatus e, phase := .idle }

/-- `CNT <- CNT + 1`. -/
def countTick (s : State) : State := { s with cnt := s.cnt + 1 }

/-- `PHASE <- p` with `CNT <- 1`: the sample that ended a pulse is the first of the next (41_sampler.md R111). -/
def nextPulse (p : Phase) (s : State) : State := { s with phase := p, cnt := 1 }

/-- `wait(L, B, on_exit)` (R111); `onExit` sees in `CNT` the width of the pulse that just ended. -/
def waitPulse (level : Bool) (bound : Nat) (onExit : State → State) (s : State) : State :=
  if s.port.lineIn = level then
    if s.cnt.toNat = bound then raiseError .timeout s else countTick s
  else onExit s

/-- `SHIFT bit` with the count of R131 (42_frame.md R130, R131). -/
def shiftBit (bit : Bool) (s : State) : State :=
  { s with sr := shiftIn s.sr bit, bitcnt := s.bitcnt + 1 }

/-- The exit of `BITH` (41_sampler.md R118). -/
def endBit (s : State) : State :=
  nextPulse (if s.bitcnt = 39 then .check else .bitl) (shiftBit (pulseBit s.cfg s.cnt) s)

/-- `commit((h, t), m)` (43_check_convert.md R150). -/
def commit (r : Reading) (m : SensorModel) (s : State) : State :=
  { s with frame := s.sr, hum := r.h, temp := r.t, valid := true, rstat := .none, model := m, phase := .idle }

/-- A command takes effect only in `IDLE`; otherwise it is ignored and not remembered (40_commands.md R90, R91). -/
def whenIdle (effect : State → State) (s : State) : State :=
  if s.phase = .idle then effect s else s

/-- First one operation, then, if it answers a next state, the other (10_state.md R45). -/
def andThen (o : Host.Outcome State Fault Refusal) (k : State → Host.Outcome State Fault Refusal) :
    Host.Outcome State Fault Refusal :=
  match o with
  | .next s => k s
  | .fault r => .fault r
  | .refused r => .refused r

end Sys2Proof.Machine
end

