-- ==== Sys2Proof/Machine/Check.lean ====
section
/-! DEFINITION. The `CHECK` phase: checksum, conversion, auto-detect, commit (43_check_convert.md R140, R149). -/

namespace Sys2Proof.Machine

/-- Auto-detect: the DHT22 scaling is tried first, then the DHT11 scaling (R149). -/
def autoDetect (s : State) : State :=
  if plausible22 s.cfg (conv22 s.sr) then commit (conv22 s.sr) .dht22Family s
  else if plausible11 s.cfg (conv11 s.cfg s.sr) then commit (conv11 s.cfg s.sr) .dht11 s
  else raiseError .checksumError s

/-- `CHECK` (R140): a fixed model commits every checksum-valid frame (R145). -/
def execCheck (s : State) : Host.Outcome State Fault Refusal :=
  .next (if checksumOk s.sr then
      match s.model with
      | .dht11 => commit (conv11 s.cfg s.sr) .dht11 s
      | .dht22Family => commit (conv22 s.sr) .dht22Family s
      | .autoDetect => autoDetect s
    else raiseError .checksumError s)

end Sys2Proof.Machine
end

