-- ==== Sys2Proof/Machine/Commands.lean ====
section
/-! DEFINITION. The host commands `NOP`, `SETUP`, `READ` (40_commands.md). -/

namespace Sys2Proof.Machine

/-- `NOP`: no state changes (R92). -/
def execNop (s : State) : Host.Outcome State Fault Refusal := .next s

/-- The effect of `SETUP` with a model's code (R93). -/
def setModel (m : SensorModel) (s : State) : State := { s with model := m, armed := true }

/-- `SETUP m` (R93): the code 3 changes nothing, not even `ARMED` (corner (d)). -/
def execSetup (m : BitVec 2) (s : State) : Host.Outcome State Fault Refusal :=
  .next (whenIdle (fun s => match modelOfCode m with
    | some k => setModel k s
    | none => s) s)

/-- `READ` accepted (R96). -/
def acceptRead (s : State) : State :=
  { s with phase := .wake, cnt := 0, bitcnt := 0, sr := 0, lastMs := s.port.nowMs, armed := false, skip := false }

/-- `READ` passthrough (R97). -/
def passRead (s : State) : State := { s with skip := true }

/-- `READ` (R94): the gate of R95 decides between R96 and R97. -/
def execRead (s : State) : Host.Outcome State Fault Refusal :=
  .next (whenIdle (fun s => if gateOpen s then acceptRead s else passRead s) s)

end Sys2Proof.Machine
end

