-- ==== Sys2Proof/Machine/Sampler.lean ====
section
/-! DEFINITION. The micro-operations of the pulse-width sampler (41_sampler.md R110 to R118) with the frame engine's
`SHIFT` at the exit of `BITH` (42_frame.md R130). The level `s` is `port.lineIn`, 1 = high. -/

namespace Sys2Proof.Machine

/-- `IDLE`: a tick changes no state (R112). -/
def execIdle (s : State) : Host.Outcome State Fault Refusal := .next s

/-- The end of the wake pulse: the line is released (R113). -/
def releaseLine (s : State) : State := { s with phase := .resp, cnt := 0 }

/-- `WAKE`: counts the wake pulse (R113). -/
def execWake (s : State) : Host.Outcome State Fault Refusal :=
  .next (if s.cnt.toNat = wakeTicks s.cfg s.model then releaseLine s else countTick s)

/-- `RESP`: waits out the released-high level (R114). -/
def execResp (s : State) : Host.Outcome State Fault Refusal :=
  .next (waitPulse true s.cfg.tmoResp (nextPulse .ackl) s)

/-- `ACKL`: waits out the acknowledge low pulse (R115). -/
def execAckl (s : State) : Host.Outcome State Fault Refusal :=
  .next (waitPulse false s.cfg.tmoAckl (nextPulse .ackh) s)

/-- `ACKH`: waits out the acknowledge high pulse (R116). -/
def execAckh (s : State) : Host.Outcome State Fault Refusal :=
  .next (waitPulse true s.cfg.tmoAckh (nextPulse .bitl) s)

/-- `BITL`: waits out a start-of-bit low pulse (R117). -/
def execBitl (s : State) : Host.Outcome State Fault Refusal :=
  .next (waitPulse false s.cfg.tmoBitl (nextPulse .bith) s)

/-- `BITH`: measures a data high pulse, then shifts its bit (R118). -/
def execBith (s : State) : Host.Outcome State Fault Refusal :=
  .next (waitPulse true s.cfg.tmoBith endBit s)

end Sys2Proof.Machine
end

