-- ==== Sys2Proof/Machine/Dispatch.lean ====
section
/-! DEFINITION. The meaning of every instruction: one arm per row of spec/opcode_table.json. -/

namespace Sys2Proof.Machine

def exec (i : Instr) (s : State) : Host.Outcome State Fault Refusal :=
  match i with
  | .nop => Sys2Proof.Machine.execNop s
  | .setup m => Sys2Proof.Machine.execSetup m s
  | .read => Sys2Proof.Machine.execRead s
  | .idle => Sys2Proof.Machine.execIdle s
  | .wake => Sys2Proof.Machine.execWake s
  | .resp => Sys2Proof.Machine.execResp s
  | .ackl => Sys2Proof.Machine.execAckl s
  | .ackh => Sys2Proof.Machine.execAckh s
  | .bitl => Sys2Proof.Machine.execBitl s
  | .bith => Sys2Proof.Machine.execBith s
  | .check => Sys2Proof.Machine.execCheck s

end Sys2Proof.Machine
end

