-- ==== Sys2Proof/Machine/Clock.lean ====
section
/-! DEFINITION. What happens at one rising edge of `clk` (10_state.md R45): reset and nothing else; otherwise the bus
access, then the tick. The bus is 10_state.md R43 with 20_memory.md R52 and R53; the tick is 30_encoding.md R74. -/

namespace Sys2Proof.Machine

/-- An edge at which the host writes (20_memory.md R53). -/
def isWrite (e : Edge) : Bool := !e.rst && e.sel && e.wr

/-- What `rdata` carries at an edge, from the state before it: 0 under reset (R180), the word read (R43, R52), 0 when
there is no access (R43), and a free value at a write, of which the spec states nothing. -/
def rdataAt (e : Edge) (s : State) : Word :=
  if e.rst then 0
  else if e.sel then if e.wr then Config.rdataOnWrite s.freeCount else readWindow s e.addr
  else 0

/-- The edge `e` arrives: its inputs are presented to the block and `rdata` answers. -/
def present (e : Edge) (later : List Edge) (s : State) : State :=
  { s with
    port := e
    pending := later
    rdata := rdataAt e s
    freeCount := if isWrite e then s.freeCount + 1 else s.freeCount }

/-- A bus write: the word written to `CMD` is decoded and executed; a reserved word is ignored (30_encoding.md R73),
and so is a write to any other word (20_memory.md R53). -/
def busWrite (s : State) : Host.Outcome State Fault Refusal :=
  if wordSelect s.port.addr = 0 then
    match decode (.command s.port.wdata) with
    | .ok i => exec i s
    | .error (.reservedOp _) => .next s
  else .next s

/-- The bus access of an edge; a read changes no state (20_memory.md R52). -/
def busAccess (s : State) : Host.Outcome State Fault Refusal :=
  if s.port.sel && s.port.wr then busWrite s else .next s

/-- The tick of an edge: the micro-operation that `PHASE` names (30_encoding.md R74). -/
def tick (s : State) : Host.Outcome State Fault Refusal :=
  if s.port.tickEn then exec (decodePhase (phaseCode s.phase)) s else .next s

/-- One edge, its inputs presented (10_state.md R45). -/
def clockEdge (s : State) : Host.Outcome State Fault Refusal :=
  if s.port.rst then .next (applyReset s) else andThen (busAccess s) tick

/-- A command is fetched from the next edge's write to `CMD`; a micro-operation is fetched from `PHASE` by the next
edge's tick. The other inputs stay as the port has them. -/
def placeWord (nbits w : Nat) (s : State) : State :=
  match tableCode nbits w with
  | some (.command c) =>
    { s with pending := { s.port with rst := false, sel := true, wr := true, addr := 0, wdata := c, tickEn := false } :: s.pending }
  | some (.phase p) =>
    { s with
      phase := phaseOfCode p
      pending := { s.port with rst := false, sel := false, wr := false, tickEn := true } :: s.pending }
  | none => s

end Sys2Proof.Machine
end

