-- ==== Sys2Proof/Machine/Step.lean ====
section
/-! DEFINITION. One step is one rising edge of `clk` (10_state.md R40). With no edge to come the clock does not rise
and nothing changes (notes/assumptions/1.md). -/

namespace Sys2Proof.Machine

/-- One rising edge: the next of `pending`. -/
def step (s : State) : Host.Outcome State Fault Refusal :=
  match s.pending with
  | [] => .next s
  | e :: later => clockEdge (present e later s)

/-- `s` with the instruction of these table bits placed where the next step fetches it (notes/assumptions/12.md). -/
def State.withFetchWord (s : State) (nbits w : Nat) : State := placeWord nbits w s

end Sys2Proof.Machine
end

