-- ==== Sys2Proof/Safety.lean ====
section
/-! DEFINITION. What a safe run of the block is, in the words the statements use: runs of clock edges, commands on the
bus, the wait of each phase (60_exceptions.md R161), and the invariant of 10_state.md R47. -/

namespace Sys2Proof.Machine

/-- `k` clock edges. -/
def runEdges : Nat → State → Host.Outcome State Fault Refusal
  | 0, s => .next s
  | k + 1, s => andThen (step s) (runEdges k)

/-- The edge writes a word to `CMD` that decodes to the command `i` (20_memory.md R53). -/
abbrev Commands (e : Edge) (i : Instr) : Prop :=
  isWrite e = true ∧ wordSelect e.addr = 0 ∧ decode (.command e.wdata) = .ok i

/-- Every edge of the list has a tick and no reset; the bus may do anything. -/
abbrev Ticking (es : List Edge) : Prop := ∀ e ∈ es, e.rst = false ∧ e.tickEn = true

/-- The level a phase waits out and its bound (60_exceptions.md R161). -/
def waitsFor (c : Cfg) : Phase → Option (Bool × Nat)
  | .idle => none
  | .wake => none
  | .resp => some (true, c.tmoResp)
  | .ackl => some (false, c.tmoAckl)
  | .ackh => some (true, c.tmoAckh)
  | .bitl => some (false, c.tmoBitl)
  | .bith => some (true, c.tmoBith)
  | .check => none

/-- The longest a transaction can take, in ticks after the accepted `READ` (41_sampler.md R122). -/
def longestTransaction (c : Cfg) (m : SensorModel) : Nat :=
  (wakeTicks c m + 1) + (c.tmoResp + 1) + c.tmoAckl + c.tmoAckh + 40 * (c.tmoBitl + c.tmoBith) + 1

/-- The samples of a run of data bits: for each, a low pulse and a high pulse (30_encoding.md R77). -/
def bitSamples : List (Nat × Nat) → List Bool
  | [] => []
  | (low, high) :: rest => List.replicate low false ++ List.replicate high true ++ bitSamples rest

/-- The samples of a whole transaction after the release, up to the low sample that ends the last bit (R78). -/
def frameSamples (h0 al ah : Nat) (bits : List (Nat × Nat)) : List Bool :=
  List.replicate h0 true ++ List.replicate al false ++ List.replicate ah true ++ bitSamples bits ++ [false]

/-- The reset values of 10_state.md R46, with the outputs and the `STATUS` word they give. -/
abbrev HasResetValues (s : State) : Prop :=
  (s.phase = .idle ∧ s.bitcnt = 0 ∧ s.cnt = 0 ∧ s.sr = 0 ∧ s.frame = 0 ∧ s.hum = 0 ∧ s.temp = 0 ∧ s.lastMs = 0 ∧
    s.rstat = .none ∧ s.model = .autoDetect ∧ s.skip = false ∧ s.armed = true ∧ s.valid = false) ∧
  (lineOe s = false ∧ linePu s = true ∧ crit s = false ∧ busy s = false ∧ statusWord s = 0x00000040)

/-- `t` is `s` but for what belongs to the edges themselves: the ports, the edges to come, `rdata` and the number of
the next free value. The thirteen elements of R20 and the parameters are the same. -/
abbrev SameBlock (s t : State) : Prop :=
  t = { s with port := t.port, pending := t.pending, rdata := t.rdata, freeCount := t.freeCount }

/-- The invariant of 10_state.md R47, with what makes it inductive: before the first bit `BITCNT` is 0, `SR` holds no
more than `BITCNT` bits (42_frame.md R130 corner (a)), and the cached `Reading` is a conversion of the cached frame
(43_check_convert.md R150). -/
structure State.Inv (s : State) : Prop where
  cfgOk : s.cfg.Ok
  bitcntLe : s.bitcnt.toNat ≤ 40
  wakeCnt : s.phase = .wake → s.cnt.toNat ≤ wakeTicks s.cfg s.model
  waitCnt : ∀ l b, waitsFor s.cfg s.phase = some (l, b) → s.cnt.toNat ≤ b ∧ (s.phase ≠ .resp → 1 ≤ s.cnt.toNat)
  beforeBits : s.phase = .wake ∨ s.phase = .resp ∨ s.phase = .ackl ∨ s.phase = .ackh → s.bitcnt = 0
  duringBits : s.phase = .bitl ∨ s.phase = .bith → s.bitcnt.toNat ≤ 39
  afterBits : s.phase = .check → s.bitcnt = 40
  srBits : s.sr.toNat < 2 ^ s.bitcnt.toNat
  nothingCached : s.valid = false → s.frame = 0 ∧ s.hum = 0 ∧ s.temp = 0
  cachedChecked : s.valid = true → checksumOk s.frame = true
  cachedConverted : s.valid = true →
    (⟨s.hum, s.temp⟩ : Reading) = conv22 s.frame ∨ (⟨s.hum, s.temp⟩ : Reading) = conv11 s.cfg s.frame

end Sys2Proof.Machine
end

