-- ==== Sys2Proof/Certificates/Slice0/Obligations.lean ====
section
/-! DEFINITION. The statements for the provers, in the order of spec/: reset and the edge, encodings, commands, the
sampler, the frame, the check, errors, whole-machine rules. -/

open Sys2Proof Sys2Proof.Machine

/-! ### Reset and the clock edge -/

/-- 10_state.md R46 and 70_reset_and_hazards.md R180: the reset state, and an edge with `rst` = 1 from any state with
any other inputs, have the listed values; `rdata` is 0. -/
def Obligations.ResetEdgeGivesTheResetValues : Prop :=
  HasResetValues State.reset ∧
  ∀ (s : State) (e : Edge) (later : List Edge), s.pending = e :: later → e.rst = true →
    ∃ t, step s = .next t ∧ HasResetValues t ∧ t.rdata = 0

/-- How an instruction comes to run (20_memory.md R53, 30_encoding.md R74, 10_state.md R45): a word written to `CMD` is
decoded and executed at its edge, then the tick of that edge, if it has one, executes the micro-operation `PHASE`
names. The names `present`, `tick`, `andThen` are the model's. -/
def Obligations.StepRunsTheDecodedInstruction : Prop :=
  (∀ (s : State) (e : Edge) (later : List Edge), s.pending = e :: later → e.rst = false →
    (∀ i, Commands e i → step s = andThen (exec i (present e later s)) tick) ∧
    ((∀ i, ¬ Commands e i) → step s = tick (present e later s))) ∧
  (∀ u : State, u.port.tickEn = true → ∃ i, decode (.phase (phaseCode u.phase)) = .ok i ∧ tick u = exec i u) ∧
  (∀ u : State, u.port.tickEn = false → tick u = .next u)

/-- 10_state.md R45: (1) under reset no other input matters; (2) a read returns the state before the edge, whatever
the tick does, and a write to `CMD` executes its command on that state; (3) the tick sees what the bus access left, so an accepted `READ` with a tick gives `WAKE`, `CNT` = 1. -/
def Obligations.EdgeEventsHappenInOrder : Prop :=
  (∀ (s : State) (e e' : Edge) (later : List Edge), e.rst = true → e'.rst = true →
    ∃ t, step { s with pending := e :: later } = .next t ∧
      step { s with pending := e' :: later } = .next { t with port := e' }) ∧
  (∀ (s : State) (e : Edge) (later : List Edge), s.pending = e :: later → e.rst = false → e.sel = true → e.wr = false →
    ∃ t, step s = .next t ∧ t.rdata = readWindow s e.addr) ∧
  (∀ (s : State) (e : Edge) (later : List Edge) (i : Instr), s.pending = e :: later → Commands e i →
    step s = andThen (exec i (present e later s)) tick) ∧
  (∀ (s : State) (e : Edge) (later : List Edge), s.pending = e :: later → s.cfg.Ok → s.phase = .idle →
    Commands e .read → e.tickEn = true → (s.armed = true ∨ minPeriod s.cfg s.model ≤ (e.nowMs - s.lastMs).toNat) →
    ∃ t, step s = .next t ∧ t.phase = .wake ∧ t.cnt = 1 ∧ t.lastMs = e.nowMs)

/-- 20_memory.md R52, with R57's `addr[1:0]` not decoded: the word a read returns, and that a read changes no state; and
`rdata` is 0 at an edge with no access (10_state.md R43). -/
def Obligations.RegisterReadsReturnTheirWord : Prop :=
  (∀ (s : State) (e : Edge) (later : List Edge), s.pending = e :: later → e.rst = false → e.sel = true → e.wr = false →
    ∃ v : Word, step s = tick { s with port := e, pending := later, rdata := v } ∧
      (∃ t, step s = .next t ∧ t.rdata = v) ∧
      (e.addr.toNat / 4 = 0 → v = 0) ∧
      (e.addr.toNat / 4 = 1 → v = statusWord s) ∧
      (e.addr.toNat / 4 = 2 → v.toNat = s.frame.toNat % 2 ^ 32) ∧
      (e.addr.toNat / 4 = 3 → v.toNat = s.frame.toNat / 2 ^ 32) ∧
      (e.addr.toNat / 4 = 4 → v.toNat = s.hum.toNat) ∧
      (e.addr.toNat / 4 = 5 → v.toInt = s.temp.toInt) ∧
      (e.addr.toNat / 4 = 6 → v = s.lastMs) ∧
      (e.addr.toNat / 4 = 7 → v = 0)) ∧
  (∀ (s : State) (e : Edge) (later : List Edge), s.pending = e :: later → e.rst = false → e.sel = false →
    step s = tick { s with port := e, pending := later, rdata := 0 } ∧ ∃ t, step s = .next t ∧ t.rdata = 0)

/-- 20_memory.md R53: a write to word 0 is executed as a command at its edge (a reserved word has no effect, R73), a
write to any other word changes no state and raises no error. -/
def Obligations.OnlyWritesToCmdAct : Prop :=
  ∀ (s : State) (e : Edge) (later : List Edge), s.pending = e :: later → isWrite e = true →
    (e.addr.toNat / 4 = 0 → ∀ i, decode (.command e.wdata) = .ok i →
      step s = andThen (exec i (present e later s)) tick) ∧
    (e.addr.toNat / 4 ≠ 0 → step s = tick (present e later s) ∧ SameBlock s (present e later s))

/-- 10_state.md R33: every field of `STATUS`, by its bits, and that a read of the word gives the state before the edge,
whatever the tick of the edge does. -/
def Obligations.StatusWordHoldsItsFields : Prop :=
  (∀ s : State,
    (statusWord s).extractLsb' 0 2 = statusCode s.rstat ∧
    (statusWord s).getLsbD 2 = busy s ∧
    (statusWord s).getLsbD 3 = s.skip ∧
    (statusWord s).extractLsb' 4 2 = modelCode s.model ∧
    (statusWord s).getLsbD 6 = s.armed ∧
    (statusWord s).getLsbD 7 = s.valid ∧
    (statusWord s).extractLsb' 8 3 = phaseCode s.phase ∧
    (statusWord s).extractLsb' 11 6 = s.bitcnt ∧
    (statusWord s).extractLsb' 17 15 = 0) ∧
  (∀ (s : State) (e : Edge) (later : List Edge), s.pending = e :: later → e.rst = false → e.sel = true → e.wr = false →
    e.addr.toNat / 4 = 1 → ∃ t, step s = .next t ∧ t.rdata = statusWord s)

/-! ### Encodings -/

/-- Words written out from 30_encoding.md R71, R72, R80 and the codes of R74. -/
def Obligations.SpecWordsDecode : Prop :=
  decode (.command 0x00000000) = .ok .nop ∧
  decode (.command 0x00000001) = .ok (.setup 0) ∧
  decode (.command 0x00000011) = .ok (.setup 1) ∧
  decode (.command 0x00000021) = .ok (.setup 2) ∧
  decode (.command 0x00000002) = .ok .read ∧
  decode (.command 0xFFFFFFC2) = .ok .read ∧
  decode (.command 0x00000003) = .error (.reservedOp 3) ∧
  decode (.phase 0b001) = .ok .wake ∧
  decode (.phase 0b110) = .ok .bith ∧
  decode (.phase 0b111) = .ok .check

/-- 30_encoding.md R71: a word is the row whose `w & mask == match`, every other word is reserved; R72: the operand of
`SETUP` is `w[5:4]`, unsigned, with the codes of R28. -/
def Obligations.DecoderFollowsTheOpcodeTable : Prop :=
  (∀ w : Word,
    (w &&& 0x0000000F = 0x00000000 → decode (.command w) = .ok .nop) ∧
    (w &&& 0x0000000F = 0x00000001 →
      ∃ m : BitVec 2, m.toNat = w.toNat / 16 % 4 ∧ decode (.command w) = .ok (.setup m)) ∧
    (w &&& 0x0000000F = 0x00000002 → decode (.command w) = .ok .read) ∧
    (3 ≤ (w &&& 0x0000000F).toNat → ∃ op, decode (.command w) = .error (.reservedOp op))) ∧
  (modelOfCode 0 = some .autoDetect ∧ modelOfCode 1 = some .dht11 ∧ modelOfCode 2 = some .dht22Family ∧
    modelOfCode 3 = none)

/-- Decode and encode agree: every instruction decodes back from its code with its operand, and a code decodes to an
instruction exactly when it agrees with that instruction's code in every bit its row decodes. -/
def Obligations.DecodeAndEncodeAgree : Prop :=
  (∀ i, decode (encode i) = .ok i) ∧
  (∀ (w : Word) (i : Instr), decode (.command w) = .ok i ↔ encode i = .command (w &&& decodedBits i)) ∧
  (∀ (p : BitVec 3) (i : Instr), decode (.phase p) = .ok i ↔ encode i = .phase p)

/-- 30_encoding.md R73: a reserved word changes no state, in any phase, and words that differ only in ignored bits are
the same command. The model takes the hardware's "ignores" (notes/assumptions/7.md), not U1's refusal. -/
def Obligations.ReservedWordsAndIgnoredBitsHaveNoEffect : Prop :=
  (∀ (s : State) (e : Edge) (later : List Edge), s.pending = e :: later → isWrite e = true → wordSelect e.addr = 0 →
    (3 ≤ (e.wdata &&& 0x0000000F).toNat ∨ e.wdata &&& 0x0000003F = 0x00000031) →
    step s = tick (present e later s) ∧ SameBlock s (present e later s)) ∧
  (∀ (s : State) (e : Edge) (later : List Edge) (w : Word), s.pending = e :: later → isWrite e = true →
    wordSelect e.addr = 0 → e.wdata &&& 0x0000000F = w &&& 0x0000000F →
    (e.wdata &&& 0x0000000F = 0x00000001 → e.wdata &&& 0x00000030 = w &&& 0x00000030) →
    ∃ t, step s = .next t ∧
      step { s with pending := { e with wdata := w } :: later } = .next { t with port := { e with wdata := w } })

/-! ### Host commands -/

/-- 40_commands.md R92: `NOP` changes no state; the all-zero word is `NOP`; after reset it leaves `STATUS` 0x40. -/
def Obligations.NopChangesNothing : Prop :=
  (∀ s : State, exec .nop s = .next s) ∧ decode (.command 0x00000000) = .ok .nop ∧
  ∃ t, exec .nop State.reset = .next t ∧ statusWord t = 0x00000040

/-- 40_commands.md R93: `SETUP m` writes `MODEL` and `ARMED` and nothing else, the code 3 changes nothing; a `READ`
after it passes the gate whatever the time; the example word 0x21 after reset. -/
def Obligations.SetupSetsModelAndArms : Prop :=
  (∀ s : State, s.phase = .idle →
    (∀ k : SensorModel, exec (.setup (modelCode k)) s = .next { s with model := k, armed := true }) ∧
    exec (.setup 3) s = .next s ∧
    (∀ (k : SensorModel) (t : State) (p : Edge), exec (.setup (modelCode k)) s = .next t →
      gateOpen { t with port := p } = true)) ∧
  ∃ i t, decode (.command 0x00000021) = .ok i ∧ exec i State.reset = .next t ∧ t.model = .dht22Family ∧
    t.armed = true ∧ statusWord t = 0x00000060

/-- 40_commands.md R94 to R97: in `IDLE` a `READ` is accepted exactly when `ARMED` = 1 or `(now - LAST_MS) mod 2^32` is
at least the model's minimum period, and is a passthrough otherwise, each with its whole effect. -/
def Obligations.ReadIsGatedByTheMinimumPeriod : Prop :=
  (∀ s : State, s.phase = .idle →
    ((s.armed = true ∨ minPeriod s.cfg s.model ≤ (s.port.nowMs.toNat + 2 ^ 32 - s.lastMs.toNat) % 2 ^ 32) →
      ∃ t, exec .read s = .next t ∧
        t = { s with phase := .wake, cnt := 0, bitcnt := 0, sr := 0, lastMs := s.port.nowMs, armed := false,
                     skip := false } ∧
        lineOe t = true ∧ linePu t = false ∧ busy t = true) ∧
    (s.armed = false ∧ (s.port.nowMs.toNat + 2 ^ 32 - s.lastMs.toNat) % 2 ^ 32 < minPeriod s.cfg s.model →
      exec .read s = .next { s with skip := true })) ∧
  (∀ c : Cfg, minPeriod c .autoDetect = c.minMsAuto ∧ minPeriod c .dht11 = c.minMs11 ∧
    minPeriod c .dht22Family = c.minMs22) ∧
  (∃ t, exec .read { State.reset with port := { Edge.rest with nowMs := 5000 } } = .next t ∧
    statusWord t = 0x00000104 ∧ t.lastMs = 5000)

/-- 40_commands.md R91: while `PHASE` != `IDLE` every command word is ignored: no state changes and nothing is
remembered, so the edge does what its tick does. -/
def Obligations.CommandsWhileBusyAreIgnored : Prop :=
  ∀ s : State, s.phase ≠ .idle →
    (exec .nop s = .next s ∧ (∀ m, exec (.setup m) s = .next s) ∧ exec .read s = .next s) ∧
    ∀ (e : Edge) (later : List Edge), s.pending = e :: later → e.rst = false →
      step s = tick (present e later s) ∧ SameBlock s (present e later s)

/-! ### The sampler -/

/-- 41_sampler.md R112: ticks in `IDLE` change no state, however many and whatever the line shows; the block leaves
`IDLE` only by an accepted `READ`. -/
def Obligations.IdleTicksChangeNothing : Prop :=
  (∀ s : State, exec .idle s = .next s) ∧
  (∀ (s : State) (es later : List Edge), s.phase = .idle → (∀ e ∈ es, e.rst = false ∧ e.sel = false) →
    s.pending = es ++ later →
    ∃ t, runEdges es.length s = .next t ∧ SameBlock s t ∧ t.pending = later ∧
      lineOe t = false ∧ linePu t = true ∧ crit t = false ∧ busy t = false) ∧
  (∀ (s : State) (e : Edge) (later : List Edge), s.phase = .idle → s.pending = e :: later → e.rst = false →
    ∃ t, step s = .next t ∧ (t.phase ≠ .idle → Commands e .read ∧ gateOpen (present e later s) = true))

/-- 41_sampler.md R113: what one tick of `WAKE` does, the outputs while it lasts, and that from the `READ` the phase
lasts `T_WAKE(MODEL) + 1` ticks, the last of which releases the line; `T_WAKE` selects by model (00_scope.md R6). -/
def Obligations.WakePulseLastsItsLength : Prop :=
  (∀ s : State,
    (s.cnt.toNat = wakeTicks s.cfg s.model → exec .wake s = .next { s with phase := .resp, cnt := 0 }) ∧
    (s.cnt.toNat ≠ wakeTicks s.cfg s.model → exec .wake s = .next { s with cnt := s.cnt + 1 })) ∧
  (∀ c : Cfg, wakeTicks c .autoDetect = c.tWakeAuto ∧ wakeTicks c .dht11 = c.tWake11 ∧
    wakeTicks c .dht22Family = c.tWake22) ∧
  ∀ (s : State) (es later : List Edge), s.cfg.Ok → s.phase = .wake → s.cnt.toNat ≤ wakeTicks s.cfg s.model →
    Ticking es → s.pending = es ++ later →
    ∃ t, runEdges es.length s = .next t ∧
      (s.cnt.toNat + es.length ≤ wakeTicks s.cfg s.model →
        SameBlock { s with cnt := t.cnt } t ∧ t.cnt.toNat = s.cnt.toNat + es.length ∧
        lineOe t = true ∧ linePu t = false ∧ crit t = false) ∧
      (s.cnt.toNat + es.length = wakeTicks s.cfg s.model + 1 →
        SameBlock { s with phase := .resp, cnt := 0 } t ∧ lineOe t = false ∧ linePu t = true)

/-- 41_sampler.md section 2: one tick of each of the four phases that only wait. Each counts, times out at its bound
(60_exceptions.md R163) or passes to the next phase with `CNT` = 1; nothing else changes. -/
def Obligations.WaitPhasesCountTimeOutOrPass : Prop :=
  ∀ s : State,
    (s.port.lineIn = true → s.cnt.toNat = s.cfg.tmoResp → exec .resp s = .next { s with rstat := .timeout, phase := .idle }) ∧
    (s.port.lineIn = true → s.cnt.toNat ≠ s.cfg.tmoResp → exec .resp s = .next { s with cnt := s.cnt + 1 }) ∧
    (s.port.lineIn = false → exec .resp s = .next { s with phase := .ackl, cnt := 1 }) ∧
    (s.port.lineIn = false → s.cnt.toNat = s.cfg.tmoAckl → exec .ackl s = .next { s with rstat := .timeout, phase := .idle }) ∧
    (s.port.lineIn = false → s.cnt.toNat ≠ s.cfg.tmoAckl → exec .ackl s = .next { s with cnt := s.cnt + 1 }) ∧
    (s.port.lineIn = true → exec .ackl s = .next { s with phase := .ackh, cnt := 1 }) ∧
    (s.port.lineIn = true → s.cnt.toNat = s.cfg.tmoAckh → exec .ackh s = .next { s with rstat := .timeout, phase := .idle }) ∧
    (s.port.lineIn = true → s.cnt.toNat ≠ s.cfg.tmoAckh → exec .ackh s = .next { s with cnt := s.cnt + 1 }) ∧
    (s.port.lineIn = false → exec .ackh s = .next { s with phase := .bitl, cnt := 1 }) ∧
    (s.port.lineIn = false → s.cnt.toNat = s.cfg.tmoBitl → exec .bitl s = .next { s with rstat := .timeout, phase := .idle }) ∧
    (s.port.lineIn = false → s.cnt.toNat ≠ s.cfg.tmoBitl → exec .bitl s = .next { s with cnt := s.cnt + 1 }) ∧
    (s.port.lineIn = true → exec .bitl s = .next { s with phase := .bith, cnt := 1 })

/-- 41_sampler.md R111: over any run of ticks at the level a phase waits out, `CNT` counts the width, a pulse of width
up to the bound passes, and the sample after the bound raises `Timeout`; the sample at the other level ends the phase
and is the first of the next pulse. -/
def Obligations.PulsesPassUpToTheirBound : Prop :=
  (∀ (s : State) (es later : List Edge) (l : Bool) (b : Nat), s.cfg.Ok → waitsFor s.cfg s.phase = some (l, b) →
    s.cnt.toNat ≤ b → Ticking es → (∀ e ∈ es, e.lineIn = l) → s.pending = es ++ later →
    ∃ t, runEdges es.length s = .next t ∧
      (s.cnt.toNat + es.length ≤ b →
        SameBlock { s with cnt := t.cnt } t ∧ t.cnt.toNat = s.cnt.toNat + es.length) ∧
      (s.cnt.toNat + es.length = b + 1 →
        SameBlock { s with cnt := t.cnt, rstat := .timeout, phase := .idle } t ∧ t.cnt.toNat = b)) ∧
  (∀ (s : State) (l : Bool) (b : Nat), waitsFor s.cfg s.phase = some (l, b) → s.port.tickEn = true →
    s.port.lineIn ≠ l → ∃ t, tick s = .next t ∧ t.cnt = 1 ∧ t.phase ≠ s.phase ∧ t.phase ≠ .idle) ∧
  (∀ s : State, s.cnt.toNat = wakeTicks s.cfg s.model → ∃ t, exec .wake s = .next t ∧ t.phase = .resp ∧ t.cnt = 0)

/-- 41_sampler.md R118 with 42_frame.md R130: at the low sample that ends the pulse the bit `CNT > T_BIT` enters `SR` at
bit 0, `BITCNT` counts it, and the 40th moves to `CHECK`; before that the phase counts or times out. -/
def Obligations.BithShiftsTheDecodedBit : Prop :=
  (∀ s : State,
    (s.port.lineIn = false → exec .bith s = .next
      { s with
        sr := s.sr.extractLsb' 0 39 ++ BitVec.ofBool (decide (s.cfg.tBit < s.cnt.toNat))
        bitcnt := if s.bitcnt = 39 then 40 else s.bitcnt + 1
        phase := if s.bitcnt = 39 then .check else .bitl
        cnt := 1 }) ∧
    (s.port.lineIn = true → s.cnt.toNat = s.cfg.tmoBith → exec .bith s = .next { s with rstat := .timeout, phase := .idle }) ∧
    (s.port.lineIn = true → s.cnt.toNat ≠ s.cfg.tmoBith → exec .bith s = .next { s with cnt := s.cnt + 1 }) ∧
    (s.phase = .bith → lineOe s = false ∧ linePu s = true ∧ crit s = true) ∧
    (s.port.lineIn = false → s.bitcnt = 39 → ∃ t, exec .bith s = .next t ∧ crit t = false)) ∧
  (∀ s : State, s.Inv → s.phase = .bith → 1 ≤ s.cnt.toNat)

/-- 41_sampler.md R110: every row of the transition table, and that there is no other transition. -/
def Obligations.SequencerFollowsItsTransitionTable : Prop :=
  (∀ s : State, s.Inv → s.port.tickEn = true → ∃ t, tick s = .next t ∧
    (s.phase = .idle → t = s) ∧
    (s.phase = .wake → s.cnt.toNat < wakeTicks s.cfg s.model → t.phase = .wake ∧ t.cnt = s.cnt + 1) ∧
    (s.phase = .wake → s.cnt.toNat = wakeTicks s.cfg s.model → t.phase = .resp ∧ t.cnt = 0) ∧
    (∀ l b, waitsFor s.cfg s.phase = some (l, b) → s.port.lineIn = l → s.cnt.toNat < b →
      t.phase = s.phase ∧ t.cnt = s.cnt + 1) ∧
    (∀ l b, waitsFor s.cfg s.phase = some (l, b) → s.port.lineIn = l → s.cnt.toNat = b →
      t.phase = .idle ∧ t.rstat = .timeout) ∧
    (s.phase = .resp → s.port.lineIn = false → t.phase = .ackl ∧ t.cnt = 1) ∧
    (s.phase = .ackl → s.port.lineIn = true → t.phase = .ackh ∧ t.cnt = 1) ∧
    (s.phase = .ackh → s.port.lineIn = false → t.phase = .bitl ∧ t.cnt = 1) ∧
    (s.phase = .bitl → s.port.lineIn = true → t.phase = .bith ∧ t.cnt = 1) ∧
    (s.phase = .bith → s.port.lineIn = false → s.bitcnt.toNat < 39 →
      t.phase = .bitl ∧ t.sr = shiftIn s.sr (pulseBit s.cfg s.cnt) ∧ t.bitcnt = s.bitcnt + 1 ∧ t.cnt = 1) ∧
    (s.phase = .bith → s.port.lineIn = false → s.bitcnt = 39 →
      t.phase = .check ∧ t.sr = shiftIn s.sr (pulseBit s.cfg s.cnt) ∧ t.bitcnt = 40 ∧ t.cnt = 1) ∧
    (s.phase = .check → t.phase = .idle)) ∧
  (∀ (s : State) (e : Edge) (later : List Edge), s.pending = e :: later → e.rst = false → e.tickEn = false →
    ∃ t, step s = .next t ∧
      (s.phase = .idle → Commands e .read → gateOpen (present e later s) = true → t.phase = .wake ∧ t.cnt = 0) ∧
      (¬ (s.phase = .idle ∧ Commands e .read ∧ gateOpen (present e later s) = true) → t.phase = s.phase))

/-- 10_state.md R44 and 41_sampler.md R120: the outputs as functions of `PHASE`; `crit` rises only at the release of
the line and falls only where sampling ends, at the move to `CHECK` or at a `Timeout`. -/
def Obligations.CriticalWindowCoversTheSampling : Prop :=
  (∀ s : State,
    (lineOe s = true ↔ s.phase = .wake) ∧ (linePu s = true ↔ s.phase ≠ .wake) ∧
    (crit s = true ↔ s.phase = .resp ∨ s.phase = .ackl ∨ s.phase = .ackh ∨ s.phase = .bitl ∨ s.phase = .bith) ∧
    (busy s = true ↔ s.phase ≠ .idle)) ∧
  ∀ (s : State) (e : Edge) (later : List Edge), s.cfg.Ok → s.pending = e :: later → e.rst = false →
    ∃ t, step s = .next t ∧
      (crit s = false → crit t = true → lineOe s = true ∧ lineOe t = false ∧ t.phase = .resp) ∧
      (crit s = true → crit t = false → t.phase = .check ∨ (t.phase = .idle ∧ t.rstat = .timeout))

/-- 41_sampler.md R122, which the spec derives from R110 to R118: whatever the line and the bus do, a transaction is
over at most `longestTransaction` ticks after the accepted `READ`, a tick at the edge of that `READ` (which leaves
`CNT` = 1, R45) counted; the figures are those of the default parameters. -/
def Obligations.TransactionEndsWithinItsBound : Prop :=
  (∀ (s : State) (es later : List Edge), s.cfg.Ok → s.phase = .wake →
    s.cnt.toNat ≤ wakeTicks s.cfg s.model → s.bitcnt = 0 → Ticking es →
    s.cnt.toNat + es.length = longestTransaction s.cfg s.model → s.pending = es ++ later →
    ∃ k t, s.cnt.toNat + k ≤ longestTransaction s.cfg s.model ∧ runEdges k s = .next t ∧ t.phase = .idle) ∧
  (longestTransaction Cfg.default .dht11 = 26303 ∧ longestTransaction Cfg.default .autoDetect = 26303 ∧
    longestTransaction Cfg.default .dht22Family = 9303)

/-- 41_sampler.md R121, the successful case, which the spec derives from R110 to R118: a waveform whose pulses keep
their bounds reaches `CHECK` with bit n in `SR[39 - n]`, and `PHASE` is `IDLE` again at tick N; the `CHECK` tick decides
the result. The bus may do anything meanwhile. `CNT` ticks of `WAKE` may have passed: 1 where the `READ`'s own edge has
a tick, which counts in N. -/
def Obligations.GoodPulsesGiveTheirFrame : Prop :=
  ∀ (s : State) (wakeEs es later : List Edge) (last : Edge) (h0 al ah : Nat) (bits : List (Nat × Nat)),
    s.cfg.Ok → s.phase = .wake → s.cnt.toNat ≤ wakeTicks s.cfg s.model → s.bitcnt = 0 → s.sr = 0 →
    Ticking wakeEs → s.cnt.toNat + wakeEs.length = wakeTicks s.cfg s.model + 1 →
    Ticking es → es.map (·.lineIn) = frameSamples h0 al ah bits → Ticking [last] →
    h0 ≤ s.cfg.tmoResp → 1 ≤ al → al ≤ s.cfg.tmoAckl → 1 ≤ ah → ah ≤ s.cfg.tmoAckh → bits.length = 40 →
    (∀ p ∈ bits, 1 ≤ p.1 ∧ p.1 ≤ s.cfg.tmoBitl ∧ 1 ≤ p.2 ∧ p.2 ≤ s.cfg.tmoBith) →
    s.pending = wakeEs ++ es ++ last :: later →
    ∃ t u, runEdges (wakeEs.length + es.length) s = .next t ∧
      SameBlock { s with phase := .check, bitcnt := 40, cnt := 1, sr := t.sr } t ∧
      (∀ (n : Nat) (p : Nat × Nat), bits[n]? = some p → t.sr.getLsbD (39 - n) = decide (s.cfg.tBit < p.2)) ∧
      s.cnt.toNat + wakeEs.length + es.length + 1 =
        (wakeTicks s.cfg s.model + 1) + h0 + al + ah + (bits.map (fun p => p.1 + p.2)).sum + 1 + 1 ∧
      runEdges (wakeEs.length + es.length + 1) s = .next u ∧ u.phase = .idle ∧
      exec .check (present last later t) = .next u

/-! ### The frame and the check -/

/-- 20_memory.md R54 and 42_frame.md R132: after 40 shifts bit number n, counted from the first received, is
`SR[39 - n]`, and it is bit `7 - j` of byte k for n = 8k + j; the bytes are slices of `SR`, byte 0 on top. -/
def Obligations.BitsArriveMostSignificantFirst : Prop :=
  (∀ bs : List Bool, bs.length = 40 → ∀ (n : Nat) (b : Bool), bs[n]? = some b →
    (bs.foldl shiftIn 0).getLsbD (39 - n) = b ∧
    ∀ j : Nat, j < 8 →
      (n = j → (byte0 (bs.foldl shiftIn 0)).getLsbD (7 - j) = b) ∧
      (n = 8 + j → (byte1 (bs.foldl shiftIn 0)).getLsbD (7 - j) = b) ∧
      (n = 16 + j → (byte2 (bs.foldl shiftIn 0)).getLsbD (7 - j) = b) ∧
      (n = 24 + j → (byte3 (bs.foldl shiftIn 0)).getLsbD (7 - j) = b) ∧
      (n = 32 + j → (byte4 (bs.foldl shiftIn 0)).getLsbD (7 - j) = b)) ∧
  (∀ f : Frame, f = byte0 f ++ byte1 f ++ byte2 f ++ byte3 f ++ byte4 f)

/-- 43_check_convert.md R141: the check passes exactly when the low 8 bits of the sum of the first four bytes are the
fifth; the all-zero frame passes, the all-ones frame fails, any single wrong bit is detected, opposite changes in two
bytes are not. -/
def Obligations.ChecksumComparesTheLowEightBits : Prop :=
  (∀ f : Frame, checksumOk f = true ↔
    (f.toNat / 2 ^ 32 % 256 + f.toNat / 2 ^ 24 % 256 + f.toNat / 2 ^ 16 % 256 + f.toNat / 2 ^ 8 % 256) % 256
      = f.toNat % 256) ∧
  checksumOk 0x0000000000 = true ∧ checksumOk 0xFFFFFFFFFF = false ∧ checksumOk 0x8080000000 = true ∧
  (∀ (f : Frame) (n : Nat), n < 40 → checksumOk f = true → checksumOk (f ^^^ BitVec.twoPow 40 n) = false) ∧
  (checksumOk 0x028C0111A0 = true ∧ checksumOk 0x038C0011A0 = true)

/-- 43_check_convert.md R143: the DHT22 scaling in integers, with the rule's examples. -/
def Obligations.Dht22ScalingIsSignAndMagnitude : Prop :=
  (∀ f : Frame,
    (conv22 f).h.toNat = (byte0 f).toNat * 256 + (byte1 f).toNat ∧
    ((byte2 f).toNat < 128 → (conv22 f).t.toInt = ((byte2 f).toNat * 256 + (byte3 f).toNat : Int)) ∧
    (128 ≤ (byte2 f).toNat → (conv22 f).t.toInt = -(((byte2 f).toNat - 128) * 256 + (byte3 f).toNat : Int))) ∧
  conv22 0x028C0111A0 = ⟨652, 273⟩ ∧ conv22 0x0190806576 = ⟨400, 0xFF9B⟩

/-- 43_check_convert.md R144: the DHT11 scaling in integers, for both values of `DHT11_TENTHS`, with the rule's
examples. -/
def Obligations.Dht11ScalingAddsTenths : Prop :=
  (∀ (c : Cfg) (f : Frame),
    (conv11 c f).h.toNat = (byte0 f).toNat * 10 ∧
    ∃ tenths : Nat, tenths = (if c.dht11Tenths = true then (byte3 f).toNat % 128 else 0) ∧
      ((byte3 f).toNat < 128 → (conv11 c f).t.toInt = ((byte2 f).toNat * 10 + tenths : Int)) ∧
      (128 ≤ (byte3 f).toNat → (conv11 c f).t.toInt = -((byte2 f).toNat * 10 + tenths : Int))) ∧
  (∀ c : Cfg, conv11 c 0x190015002E = ⟨250, 210⟩) ∧
  (∀ c : Cfg, c.dht11Tenths = true → conv11 c 0x28000583B0 = ⟨400, 0xFFCB⟩) ∧
  (∀ c : Cfg, c.dht11Tenths = false → conv11 c 0x28000583B0 = ⟨400, 0xFFCE⟩)

/-- 43_check_convert.md R140 and R150: the branches of the one tick of `CHECK`, the commit with everything it writes,
that the commit is the only write of the cached `Reading` short of reset, and the outputs during `CHECK`. -/
def Obligations.CheckCommitsOrRaises : Prop :=
  (∀ s : State,
    (checksumOk s.sr = false → exec .check s = .next { s with rstat := .checksumError, phase := .idle }) ∧
    (∀ (r : Reading) (m : SensorModel), checksumOk s.sr = true →
      ((s.model = .dht11 ∧ r = conv11 s.cfg s.sr ∧ m = .dht11) ∨
        (s.model = .dht22Family ∧ r = conv22 s.sr ∧ m = .dht22Family) ∨
        (s.model = .autoDetect ∧ plausible22 s.cfg (conv22 s.sr) = true ∧ r = conv22 s.sr ∧ m = .dht22Family) ∨
        (s.model = .autoDetect ∧ plausible22 s.cfg (conv22 s.sr) = false ∧
          plausible11 s.cfg (conv11 s.cfg s.sr) = true ∧ r = conv11 s.cfg s.sr ∧ m = .dht11)) →
      exec .check s = .next { s with frame := s.sr, hum := r.h, temp := r.t, valid := true, rstat := .none, model := m,
                                     phase := .idle }) ∧
    (checksumOk s.sr = true → s.model = .autoDetect → plausible22 s.cfg (conv22 s.sr) = false →
      plausible11 s.cfg (conv11 s.cfg s.sr) = false →
      exec .check s = .next { s with rstat := .checksumError, phase := .idle }) ∧
    (s.phase = .check → lineOe s = false ∧ linePu s = true ∧ crit s = false ∧ busy s = true)) ∧
  (∀ (s : State) (e : Edge) (later : List Edge), s.pending = e :: later → e.rst = false →
    ¬ (s.phase = .check ∧ e.tickEn = true) →
    ∃ t, step s = .next t ∧ t.frame = s.frame ∧ t.hum = s.hum ∧ t.temp = s.temp ∧ t.valid = s.valid)

/-- 43_check_convert.md R145: under a fixed model every checksum-valid frame is converted and committed, with no
plausibility test. -/
def Obligations.FixedModelsCommitEveryValidFrame : Prop :=
  ∀ s : State, checksumOk s.sr = true →
    (s.model = .dht22Family → exec .check s = .next
      { s with frame := s.sr, hum := (conv22 s.sr).h, temp := (conv22 s.sr).t, valid := true, rstat := .none,
               model := .dht22Family, phase := .idle }) ∧
    (s.model = .dht11 → exec .check s = .next
      { s with frame := s.sr, hum := (conv11 s.cfg s.sr).h, temp := (conv11 s.cfg s.sr).t, valid := true,
               rstat := .none, model := .dht11, phase := .idle })

/-- 43_check_convert.md R147, R148, R149: auto-detect tries the DHT22 scaling first, then the DHT11 scaling, compares
humidity unsigned and temperature signed with inclusive bounds, locks the model it commits, and otherwise raises
`ChecksumError` with `MODEL` unchanged. -/
def Obligations.AutoDetectTriesDht22First : Prop :=
  ∀ s : State, checksumOk s.sr = true → s.model = .autoDetect →
    ∀ p22 p11 : Prop,
      (p22 ↔ (conv22 s.sr).h.toNat ≤ s.cfg.hMax ∧ s.cfg.tMin22 ≤ (conv22 s.sr).t.toInt ∧
        (conv22 s.sr).t.toInt ≤ s.cfg.tMax22) →
      (p11 ↔ (conv11 s.cfg s.sr).h.toNat ≤ s.cfg.hMax ∧ s.cfg.tMin11 ≤ (conv11 s.cfg s.sr).t.toInt ∧
        (conv11 s.cfg s.sr).t.toInt ≤ s.cfg.tMax11) →
      (p22 → exec .check s = .next
        { s with frame := s.sr, hum := (conv22 s.sr).h, temp := (conv22 s.sr).t, valid := true, rstat := .none,
                 model := .dht22Family, phase := .idle }) ∧
      (¬ p22 → p11 → exec .check s = .next
        { s with frame := s.sr, hum := (conv11 s.cfg s.sr).h, temp := (conv11 s.cfg s.sr).t, valid := true,
                 rstat := .none, model := .dht11, phase := .idle }) ∧
      (¬ p22 → ¬ p11 → exec .check s = .next { s with rstat := .checksumError, phase := .idle })

/-! ### Errors -/

/-- 60_exceptions.md R161, R162, R163: from a busy state a tick raises `Timeout` exactly where a wait finds its level
still there at its bound, raises `ChecksumError` exactly at a `CHECK` with a bad checksum or a failed auto-detect, an
error changes `RSTAT` and `PHASE` and nothing else, and a transaction ends in no other way but the commit. -/
def Obligations.TransactionsEndWithTheirCode : Prop :=
  ∀ s : State, s.phase ≠ .idle → s.port.tickEn = true → ∀ timesOut badCheck : Prop,
    (timesOut ↔ ∃ b, waitsFor s.cfg s.phase = some (s.port.lineIn, b) ∧ s.cnt.toNat = b) →
    (badCheck ↔ s.phase = .check ∧ (checksumOk s.sr = false ∨ (s.model = .autoDetect ∧
      plausible22 s.cfg (conv22 s.sr) = false ∧ plausible11 s.cfg (conv11 s.cfg s.sr) = false))) →
    ∃ t, tick s = .next t ∧
      (timesOut → t = { s with rstat := .timeout, phase := .idle }) ∧
      (badCheck → t = { s with rstat := .checksumError, phase := .idle }) ∧
      (t.phase = .idle → timesOut ∨ badCheck ∨
        (s.phase = .check ∧ checksumOk s.sr = true ∧ t.rstat = .none ∧ t.valid = true ∧ t.frame = s.sr)) ∧
      (t.phase = .idle → busy t = false ∧ crit t = false ∧ lineOe t = false ∧ linePu t = true)

/-- 60_exceptions.md R164: a transaction, failed or not, has stamped its start, so a `READ` sooner than the minimum
period after that start is a passthrough, and one not sooner is accepted. `s` is any state that is not armed, as every
accepted `READ` leaves it; the edges up to the `READ` may end the transaction and go on in `IDLE`, with anything on the
bus but a `SETUP` that takes effect and a `READ` that is accepted. -/
def Obligations.FailedTransactionsStillRateLimit : Prop :=
  ∀ (s : State) (es later : List Edge) (e : Edge) (t : State), s.armed = false →
    (∀ d ∈ es, d.rst = false) → s.pending = es ++ e :: later →
    (∀ (k : Nat) (d : Edge) (u : State), es[k]? = some d → runEdges k s = .next u → u.phase = .idle →
      (∀ m : SensorModel, ¬ Commands d (.setup (modelCode m))) ∧
      (Commands d .read → gateOpen { u with port := d } = false)) →
    runEdges es.length s = .next t → t.phase = .idle → Commands e .read →
    ((e.nowMs - s.lastMs).toNat < minPeriod t.cfg t.model →
      ∃ u, step t = .next u ∧ SameBlock { t with skip := true } u ∧ u.phase = .idle ∧ u.lastMs = s.lastMs) ∧
    (minPeriod t.cfg t.model ≤ (e.nowMs - s.lastMs).toNat →
      ∃ u, step t = .next u ∧ u.phase ≠ .idle ∧ u.lastMs = e.nowMs ∧ u.skip = false)

/-! ### Whole-machine rules -/

/-- No edge stops the block, with any inputs from any state: an error never makes it unusable (60_exceptions.md section
4), and no bus access raises an error (20_memory.md section 1). -/
def Obligations.EveryEdgeAnswersANextState : Prop :=
  ∀ s : State, ∃ t, step s = .next t ∧ t.cfg = s.cfg ∧ t.pending = s.pending.tail

/-- 43_check_convert.md R142: the cached `Reading` and frame change only at a `CHECK` tick whose frame passes the
checksum, and then `FRAME` is that frame. -/
def Obligations.OnlyCheckedFramesAreCached : Prop :=
  ∀ (s : State) (e : Edge) (later : List Edge), s.pending = e :: later → e.rst = false →
    ∃ t, step s = .next t ∧
      ((t.frame ≠ s.frame ∨ t.hum ≠ s.hum ∨ t.temp ≠ s.temp ∨ t.valid ≠ s.valid) →
        s.phase = .check ∧ e.tickEn = true ∧ checksumOk s.sr = true ∧ t.frame = s.sr ∧ t.valid = true ∧
        t.rstat = .none ∧ t.phase = .idle)

/-- The table of 10_state.md section 1, all thirteen elements: what an edge without reset changes in each, it changes
for the reasons listed there. -/
def Obligations.EachElementIsWrittenOnlyByItsRules : Prop :=
  ∀ (s : State) (e : Edge) (later : List Edge), s.pending = e :: later → e.rst = false →
    ∀ readAccepted setupTaken commits : Prop,
    (readAccepted ↔ s.phase = .idle ∧ Commands e .read ∧ gateOpen (present e later s) = true) →
    (setupTaken ↔ s.phase = .idle ∧ ∃ k : SensorModel, Commands e (.setup (modelCode k))) →
    (commits ↔ s.phase = .check ∧ e.tickEn = true ∧ checksumOk s.sr = true) →
    ∃ t, step s = .next t ∧
      (t.sr ≠ s.sr → readAccepted ∨ (s.phase = .bith ∧ e.tickEn = true ∧ e.lineIn = false)) ∧
      (t.frame ≠ s.frame → commits) ∧
      (t.hum ≠ s.hum → commits) ∧
      (t.temp ≠ s.temp → commits) ∧
      (t.cnt ≠ s.cnt → readAccepted ∨ (e.tickEn = true ∧ s.phase ≠ .idle ∧ s.phase ≠ .check)) ∧
      (t.lastMs ≠ s.lastMs → readAccepted ∧ t.lastMs = e.nowMs) ∧
      (t.phase ≠ s.phase → readAccepted ∨ (e.tickEn = true ∧ s.phase ≠ .idle)) ∧
      (t.bitcnt ≠ s.bitcnt → readAccepted ∨ (s.phase = .bith ∧ e.tickEn = true ∧ e.lineIn = false)) ∧
      (t.rstat ≠ s.rstat → e.tickEn = true ∧ s.phase ≠ .idle ∧ t.phase = .idle ∧ (t.rstat = .none → commits)) ∧
      (t.model ≠ s.model → setupTaken ∨ (commits ∧ s.model = .autoDetect)) ∧
      (t.skip ≠ s.skip → s.phase = .idle ∧ Commands e .read ∧ (t.skip = false ↔ readAccepted)) ∧
      (t.armed ≠ s.armed → (t.armed = true ∧ setupTaken) ∨ (t.armed = false ∧ readAccepted)) ∧
      (t.valid ≠ s.valid → commits)

/-- 10_state.md R28 and 43_check_convert.md R149 corner (c): a model that is set or locked stays over any run without
reset and without a `SETUP`. -/
def Obligations.LockedModelStays : Prop :=
  ∀ (s : State) (es later : List Edge), s.model ≠ .autoDetect →
    (∀ e ∈ es, e.rst = false ∧ ∀ m, ¬ Commands e (.setup m)) → s.pending = es ++ later →
    ∃ t, runEdges es.length s = .next t ∧ t.model = s.model

/-- 70_reset_and_hazards.md R189: if ticks stop, a busy block stays in its phase for ever, whatever the bus does
(short of reset): nothing of it changes. -/
def Obligations.WithoutTicksABusyBlockWaits : Prop :=
  ∀ (s : State) (es later : List Edge), s.phase ≠ .idle → (∀ e ∈ es, e.rst = false ∧ e.tickEn = false) →
    s.pending = es ++ later →
    ∃ t, runEdges es.length s = .next t ∧ SameBlock s t ∧ t.pending = later

/-- The invariant of 10_state.md R47 (which the spec derives), strengthened as `State.Inv` says, is kept by every edge
with any inputs, from every state that has it; and `MODEL` does not change in `WAKE` to `BITH` short of reset. -/
def Obligations.EveryEdgeKeepsTheInvariant : Prop :=
  ∀ s : State, s.Inv →
    ∃ t, step s = .next t ∧ t.Inv ∧
      (s.phase ≠ .idle → s.phase ≠ .check → (∀ e ∈ s.pending.head?, e.rst = false) → t.model = s.model)

/-- The reset state has the invariant, with the default parameters the model gives it (notes/assumptions/6.md). -/
def Obligations.ResetStateMeetsTheInvariant : Prop :=
  State.reset.Inv ∧ (waitsFor State.reset.cfg State.reset.phase = none ∧ State.reset.cfg.Ok)

/-- What `SR` and `CNT` hold in `IDLE` is never seen again (10_state.md R37, 60_exceptions.md R163; U8): two idle
states that differ only there give the host the same answers for ever, and are equal once a `READ` is accepted. -/
def Obligations.LeftoverRegistersAreNeverSeen : Prop :=
  ∀ (s : State) (sr : Frame) (cnt : Ticks) (k : Nat), s.phase = .idle →
    ∃ t u, runEdges k s = .next t ∧ runEdges k { s with sr := sr, cnt := cnt } = .next u ∧
      t.rdata = u.rdata ∧ (∀ a, readWindow t a = readWindow u a) ∧
      (lineOe t = lineOe u ∧ linePu t = linePu u ∧ crit t = crit u ∧ busy t = busy u) ∧
      (t.phase ≠ .idle → t = u)
end

