-- ==== Sys2Proof/Laws/State.lean ====
section
/-! SUPPORT. One lemma per field and update of the state, true by rfl, so that no proof unfolds a record update. -/

namespace Sys2Proof.Machine

/-! ### The error exit (60_exceptions.md R163) -/

@[simp] theorem raiseError_sr (e : ErrorKind) (s : State) : (raiseError e s).sr = s.sr := rfl
@[simp] theorem raiseError_frame (e : ErrorKind) (s : State) : (raiseError e s).frame = s.frame := rfl
@[simp] theorem raiseError_hum (e : ErrorKind) (s : State) : (raiseError e s).hum = s.hum := rfl
@[simp] theorem raiseError_temp (e : ErrorKind) (s : State) : (raiseError e s).temp = s.temp := rfl
@[simp] theorem raiseError_cnt (e : ErrorKind) (s : State) : (raiseError e s).cnt = s.cnt := rfl
@[simp] theorem raiseError_lastMs (e : ErrorKind) (s : State) : (raiseError e s).lastMs = s.lastMs := rfl
@[simp] theorem raiseError_phase (e : ErrorKind) (s : State) : (raiseError e s).phase = .idle := rfl
@[simp] theorem raiseError_bitcnt (e : ErrorKind) (s : State) : (raiseError e s).bitcnt = s.bitcnt := rfl
@[simp] theorem raiseError_rstat (e : ErrorKind) (s : State) : (raiseError e s).rstat = errorStatus e := rfl
@[simp] theorem raiseError_model (e : ErrorKind) (s : State) : (raiseError e s).model = s.model := rfl
@[simp] theorem raiseError_skip (e : ErrorKind) (s : State) : (raiseError e s).skip = s.skip := rfl
@[simp] theorem raiseError_armed (e : ErrorKind) (s : State) : (raiseError e s).armed = s.armed := rfl
@[simp] theorem raiseError_valid (e : ErrorKind) (s : State) : (raiseError e s).valid = s.valid := rfl
@[simp] theorem raiseError_cfg (e : ErrorKind) (s : State) : (raiseError e s).cfg = s.cfg := rfl
@[simp] theorem raiseError_port (e : ErrorKind) (s : State) : (raiseError e s).port = s.port := rfl
@[simp] theorem raiseError_pending (e : ErrorKind) (s : State) : (raiseError e s).pending = s.pending := rfl
@[simp] theorem raiseError_rdata (e : ErrorKind) (s : State) : (raiseError e s).rdata = s.rdata := rfl
@[simp] theorem raiseError_freeCount (e : ErrorKind) (s : State) : (raiseError e s).freeCount = s.freeCount := rfl

/-! ### One more tick at the level (41_sampler.md R111) -/

@[simp] theorem countTick_sr (s : State) : (countTick s).sr = s.sr := rfl
@[simp] theorem countTick_frame (s : State) : (countTick s).frame = s.frame := rfl
@[simp] theorem countTick_hum (s : State) : (countTick s).hum = s.hum := rfl
@[simp] theorem countTick_temp (s : State) : (countTick s).temp = s.temp := rfl
@[simp] theorem countTick_cnt (s : State) : (countTick s).cnt = s.cnt + 1 := rfl
@[simp] theorem countTick_lastMs (s : State) : (countTick s).lastMs = s.lastMs := rfl
@[simp] theorem countTick_phase (s : State) : (countTick s).phase = s.phase := rfl
@[simp] theorem countTick_bitcnt (s : State) : (countTick s).bitcnt = s.bitcnt := rfl
@[simp] theorem countTick_rstat (s : State) : (countTick s).rstat = s.rstat := rfl
@[simp] theorem countTick_model (s : State) : (countTick s).model = s.model := rfl
@[simp] theorem countTick_skip (s : State) : (countTick s).skip = s.skip := rfl
@[simp] theorem countTick_armed (s : State) : (countTick s).armed = s.armed := rfl
@[simp] theorem countTick_valid (s : State) : (countTick s).valid = s.valid := rfl
@[simp] theorem countTick_cfg (s : State) : (countTick s).cfg = s.cfg := rfl
@[simp] theorem countTick_port (s : State) : (countTick s).port = s.port := rfl
@[simp] theorem countTick_pending (s : State) : (countTick s).pending = s.pending := rfl
@[simp] theorem countTick_rdata (s : State) : (countTick s).rdata = s.rdata := rfl
@[simp] theorem countTick_freeCount (s : State) : (countTick s).freeCount = s.freeCount := rfl

/-! ### The first sample of the next pulse (41_sampler.md R111) -/

@[simp] theorem nextPulse_sr (p : Phase) (s : State) : (nextPulse p s).sr = s.sr := rfl
@[simp] theorem nextPulse_frame (p : Phase) (s : State) : (nextPulse p s).frame = s.frame := rfl
@[simp] theorem nextPulse_hum (p : Phase) (s : State) : (nextPulse p s).hum = s.hum := rfl
@[simp] theorem nextPulse_temp (p : Phase) (s : State) : (nextPulse p s).temp = s.temp := rfl
@[simp] theorem nextPulse_cnt (p : Phase) (s : State) : (nextPulse p s).cnt = 1 := rfl
@[simp] theorem nextPulse_lastMs (p : Phase) (s : State) : (nextPulse p s).lastMs = s.lastMs := rfl
@[simp] theorem nextPulse_phase (p : Phase) (s : State) : (nextPulse p s).phase = p := rfl
@[simp] theorem nextPulse_bitcnt (p : Phase) (s : State) : (nextPulse p s).bitcnt = s.bitcnt := rfl
@[simp] theorem nextPulse_rstat (p : Phase) (s : State) : (nextPulse p s).rstat = s.rstat := rfl
@[simp] theorem nextPulse_model (p : Phase) (s : State) : (nextPulse p s).model = s.model := rfl
@[simp] theorem nextPulse_skip (p : Phase) (s : State) : (nextPulse p s).skip = s.skip := rfl
@[simp] theorem nextPulse_armed (p : Phase) (s : State) : (nextPulse p s).armed = s.armed := rfl
@[simp] theorem nextPulse_valid (p : Phase) (s : State) : (nextPulse p s).valid = s.valid := rfl
@[simp] theorem nextPulse_cfg (p : Phase) (s : State) : (nextPulse p s).cfg = s.cfg := rfl
@[simp] theorem nextPulse_port (p : Phase) (s : State) : (nextPulse p s).port = s.port := rfl
@[simp] theorem nextPulse_pending (p : Phase) (s : State) : (nextPulse p s).pending = s.pending := rfl
@[simp] theorem nextPulse_rdata (p : Phase) (s : State) : (nextPulse p s).rdata = s.rdata := rfl
@[simp] theorem nextPulse_freeCount (p : Phase) (s : State) : (nextPulse p s).freeCount = s.freeCount := rfl

/-! ### The shift and its count (42_frame.md R130, R131) -/

@[simp] theorem shiftBit_sr (b : Bool) (s : State) : (shiftBit b s).sr = shiftIn s.sr b := rfl
@[simp] theorem shiftBit_frame (b : Bool) (s : State) : (shiftBit b s).frame = s.frame := rfl
@[simp] theorem shiftBit_hum (b : Bool) (s : State) : (shiftBit b s).hum = s.hum := rfl
@[simp] theorem shiftBit_temp (b : Bool) (s : State) : (shiftBit b s).temp = s.temp := rfl
@[simp] theorem shiftBit_cnt (b : Bool) (s : State) : (shiftBit b s).cnt = s.cnt := rfl
@[simp] theorem shiftBit_lastMs (b : Bool) (s : State) : (shiftBit b s).lastMs = s.lastMs := rfl
@[simp] theorem shiftBit_phase (b : Bool) (s : State) : (shiftBit b s).phase = s.phase := rfl
@[simp] theorem shiftBit_bitcnt (b : Bool) (s : State) : (shiftBit b s).bitcnt = s.bitcnt + 1 := rfl
@[simp] theorem shiftBit_rstat (b : Bool) (s : State) : (shiftBit b s).rstat = s.rstat := rfl
@[simp] theorem shiftBit_model (b : Bool) (s : State) : (shiftBit b s).model = s.model := rfl
@[simp] theorem shiftBit_skip (b : Bool) (s : State) : (shiftBit b s).skip = s.skip := rfl
@[simp] theorem shiftBit_armed (b : Bool) (s : State) : (shiftBit b s).armed = s.armed := rfl
@[simp] theorem shiftBit_valid (b : Bool) (s : State) : (shiftBit b s).valid = s.valid := rfl
@[simp] theorem shiftBit_cfg (b : Bool) (s : State) : (shiftBit b s).cfg = s.cfg := rfl
@[simp] theorem shiftBit_port (b : Bool) (s : State) : (shiftBit b s).port = s.port := rfl
@[simp] theorem shiftBit_pending (b : Bool) (s : State) : (shiftBit b s).pending = s.pending := rfl
@[simp] theorem shiftBit_rdata (b : Bool) (s : State) : (shiftBit b s).rdata = s.rdata := rfl
@[simp] theorem shiftBit_freeCount (b : Bool) (s : State) : (shiftBit b s).freeCount = s.freeCount := rfl

/-! ### The exit of `BITH` (41_sampler.md R118) -/

@[simp] theorem endBit_sr (s : State) : (endBit s).sr = shiftIn s.sr (pulseBit s.cfg s.cnt) := rfl
@[simp] theorem endBit_frame (s : State) : (endBit s).frame = s.frame := rfl
@[simp] theorem endBit_hum (s : State) : (endBit s).hum = s.hum := rfl
@[simp] theorem endBit_temp (s : State) : (endBit s).temp = s.temp := rfl
@[simp] theorem endBit_cnt (s : State) : (endBit s).cnt = 1 := rfl
@[simp] theorem endBit_lastMs (s : State) : (endBit s).lastMs = s.lastMs := rfl
@[simp] theorem endBit_phase (s : State) : (endBit s).phase = if s.bitcnt = 39 then .check else .bitl := rfl
@[simp] theorem endBit_bitcnt (s : State) : (endBit s).bitcnt = s.bitcnt + 1 := rfl
@[simp] theorem endBit_rstat (s : State) : (endBit s).rstat = s.rstat := rfl
@[simp] theorem endBit_model (s : State) : (endBit s).model = s.model := rfl
@[simp] theorem endBit_skip (s : State) : (endBit s).skip = s.skip := rfl
@[simp] theorem endBit_armed (s : State) : (endBit s).armed = s.armed := rfl
@[simp] theorem endBit_valid (s : State) : (endBit s).valid = s.valid := rfl
@[simp] theorem endBit_cfg (s : State) : (endBit s).cfg = s.cfg := rfl
@[simp] theorem endBit_port (s : State) : (endBit s).port = s.port := rfl
@[simp] theorem endBit_pending (s : State) : (endBit s).pending = s.pending := rfl
@[simp] theorem endBit_rdata (s : State) : (endBit s).rdata = s.rdata := rfl
@[simp] theorem endBit_freeCount (s : State) : (endBit s).freeCount = s.freeCount := rfl

/-! ### The commit (43_check_convert.md R150) -/

@[simp] theorem commit_sr (r : Reading) (m : SensorModel) (s : State) : (commit r m s).sr = s.sr := rfl
@[simp] theorem commit_frame (r : Reading) (m : SensorModel) (s : State) : (commit r m s).frame = s.sr := rfl
@[simp] theorem commit_hum (r : Reading) (m : SensorModel) (s : State) : (commit r m s).hum = r.h := rfl
@[simp] theorem commit_temp (r : Reading) (m : SensorModel) (s : State) : (commit r m s).temp = r.t := rfl
@[simp] theorem commit_cnt (r : Reading) (m : SensorModel) (s : State) : (commit r m s).cnt = s.cnt := rfl
@[simp] theorem commit_lastMs (r : Reading) (m : SensorModel) (s : State) : (commit r m s).lastMs = s.lastMs := rfl
@[simp] theorem commit_phase (r : Reading) (m : SensorModel) (s : State) : (commit r m s).phase = .idle := rfl
@[simp] theorem commit_bitcnt (r : Reading) (m : SensorModel) (s : State) : (commit r m s).bitcnt = s.bitcnt := rfl
@[simp] theorem commit_rstat (r : Reading) (m : SensorModel) (s : State) : (commit r m s).rstat = .none := rfl
@[simp] theorem commit_model (r : Reading) (m : SensorModel) (s : State) : (commit r m s).model = m := rfl
@[simp] theorem commit_skip (r : Reading) (m : SensorModel) (s : State) : (commit r m s).skip = s.skip := rfl
@[simp] theorem commit_armed (r : Reading) (m : SensorModel) (s : State) : (commit r m s).armed = s.armed := rfl
@[simp] theorem commit_valid (r : Reading) (m : SensorModel) (s : State) : (commit r m s).valid = true := rfl
@[simp] theorem commit_cfg (r : Reading) (m : SensorModel) (s : State) : (commit r m s).cfg = s.cfg := rfl
@[simp] theorem commit_port (r : Reading) (m : SensorModel) (s : State) : (commit r m s).port = s.port := rfl
@[simp] theorem commit_pending (r : Reading) (m : SensorModel) (s : State) : (commit r m s).pending = s.pending := rfl
@[simp] theorem commit_rdata (r : Reading) (m : SensorModel) (s : State) : (commit r m s).rdata = s.rdata := rfl
@[simp] theorem commit_freeCount (r : Reading) (m : SensorModel) (s : State) : (commit r m s).freeCount = s.freeCount := rfl

/-! ### The effect of `SETUP` (40_commands.md R93) -/

@[simp] theorem setModel_sr (m : SensorModel) (s : State) : (setModel m s).sr = s.sr := rfl
@[simp] theorem setModel_frame (m : SensorModel) (s : State) : (setModel m s).frame = s.frame := rfl
@[simp] theorem setModel_hum (m : SensorModel) (s : State) : (setModel m s).hum = s.hum := rfl
@[simp] theorem setModel_temp (m : SensorModel) (s : State) : (setModel m s).temp = s.temp := rfl
@[simp] theorem setModel_cnt (m : SensorModel) (s : State) : (setModel m s).cnt = s.cnt := rfl
@[simp] theorem setModel_lastMs (m : SensorModel) (s : State) : (setModel m s).lastMs = s.lastMs := rfl
@[simp] theorem setModel_phase (m : SensorModel) (s : State) : (setModel m s).phase = s.phase := rfl
@[simp] theorem setModel_bitcnt (m : SensorModel) (s : State) : (setModel m s).bitcnt = s.bitcnt := rfl
@[simp] theorem setModel_rstat (m : SensorModel) (s : State) : (setModel m s).rstat = s.rstat := rfl
@[simp] theorem setModel_model (m : SensorModel) (s : State) : (setModel m s).model = m := rfl
@[simp] theorem setModel_skip (m : SensorModel) (s : State) : (setModel m s).skip = s.skip := rfl
@[simp] theorem setModel_armed (m : SensorModel) (s : State) : (setModel m s).armed = true := rfl
@[simp] theorem setModel_valid (m : SensorModel) (s : State) : (setModel m s).valid = s.valid := rfl
@[simp] theorem setModel_cfg (m : SensorModel) (s : State) : (setModel m s).cfg = s.cfg := rfl
@[simp] theorem setModel_port (m : SensorModel) (s : State) : (setModel m s).port = s.port := rfl
@[simp] theorem setModel_pending (m : SensorModel) (s : State) : (setModel m s).pending = s.pending := rfl
@[simp] theorem setModel_rdata (m : SensorModel) (s : State) : (setModel m s).rdata = s.rdata := rfl
@[simp] theorem setModel_freeCount (m : SensorModel) (s : State) : (setModel m s).freeCount = s.freeCount := rfl

/-! ### An accepted `READ` (40_commands.md R96) -/

@[simp] theorem acceptRead_sr (s : State) : (acceptRead s).sr = 0 := rfl
@[simp] theorem acceptRead_frame (s : State) : (acceptRead s).frame = s.frame := rfl
@[simp] theorem acceptRead_hum (s : State) : (acceptRead s).hum = s.hum := rfl
@[simp] theorem acceptRead_temp (s : State) : (acceptRead s).temp = s.temp := rfl
@[simp] theorem acceptRead_cnt (s : State) : (acceptRead s).cnt = 0 := rfl
@[simp] theorem acceptRead_lastMs (s : State) : (acceptRead s).lastMs = s.port.nowMs := rfl
@[simp] theorem acceptRead_phase (s : State) : (acceptRead s).phase = .wake := rfl
@[simp] theorem acceptRead_bitcnt (s : State) : (acceptRead s).bitcnt = 0 := rfl
@[simp] theorem acceptRead_rstat (s : State) : (acceptRead s).rstat = s.rstat := rfl
@[simp] theorem acceptRead_model (s : State) : (acceptRead s).model = s.model := rfl
@[simp] theorem acceptRead_skip (s : State) : (acceptRead s).skip = false := rfl
@[simp] theorem acceptRead_armed (s : State) : (acceptRead s).armed = false := rfl
@[simp] theorem acceptRead_valid (s : State) : (acceptRead s).valid = s.valid := rfl
@[simp] theorem acceptRead_cfg (s : State) : (acceptRead s).cfg = s.cfg := rfl
@[simp] theorem acceptRead_port (s : State) : (acceptRead s).port = s.port := rfl
@[simp] theorem acceptRead_pending (s : State) : (acceptRead s).pending = s.pending := rfl
@[simp] theorem acceptRead_rdata (s : State) : (acceptRead s).rdata = s.rdata := rfl
@[simp] theorem acceptRead_freeCount (s : State) : (acceptRead s).freeCount = s.freeCount := rfl

/-! ### A passthrough (40_commands.md R97) -/

@[simp] theorem passRead_sr (s : State) : (passRead s).sr = s.sr := rfl
@[simp] theorem passRead_frame (s : State) : (passRead s).frame = s.frame := rfl
@[simp] theorem passRead_hum (s : State) : (passRead s).hum = s.hum := rfl
@[simp] theorem passRead_temp (s : State) : (passRead s).temp = s.temp := rfl
@[simp] theorem passRead_cnt (s : State) : (passRead s).cnt = s.cnt := rfl
@[simp] theorem passRead_lastMs (s : State) : (passRead s).lastMs = s.lastMs := rfl
@[simp] theorem passRead_phase (s : State) : (passRead s).phase = s.phase := rfl
@[simp] theorem passRead_bitcnt (s : State) : (passRead s).bitcnt = s.bitcnt := rfl
@[simp] theorem passRead_rstat (s : State) : (passRead s).rstat = s.rstat := rfl
@[simp] theorem passRead_model (s : State) : (passRead s).model = s.model := rfl
@[simp] theorem passRead_skip (s : State) : (passRead s).skip = true := rfl
@[simp] theorem passRead_armed (s : State) : (passRead s).armed = s.armed := rfl
@[simp] theorem passRead_valid (s : State) : (passRead s).valid = s.valid := rfl
@[simp] theorem passRead_cfg (s : State) : (passRead s).cfg = s.cfg := rfl
@[simp] theorem passRead_port (s : State) : (passRead s).port = s.port := rfl
@[simp] theorem passRead_pending (s : State) : (passRead s).pending = s.pending := rfl
@[simp] theorem passRead_rdata (s : State) : (passRead s).rdata = s.rdata := rfl
@[simp] theorem passRead_freeCount (s : State) : (passRead s).freeCount = s.freeCount := rfl

/-! ### The end of the wake pulse (41_sampler.md R113) -/

@[simp] theorem releaseLine_sr (s : State) : (releaseLine s).sr = s.sr := rfl
@[simp] theorem releaseLine_frame (s : State) : (releaseLine s).frame = s.frame := rfl
@[simp] theorem releaseLine_hum (s : State) : (releaseLine s).hum = s.hum := rfl
@[simp] theorem releaseLine_temp (s : State) : (releaseLine s).temp = s.temp := rfl
@[simp] theorem releaseLine_cnt (s : State) : (releaseLine s).cnt = 0 := rfl
@[simp] theorem releaseLine_lastMs (s : State) : (releaseLine s).lastMs = s.lastMs := rfl
@[simp] theorem releaseLine_phase (s : State) : (releaseLine s).phase = .resp := rfl
@[simp] theorem releaseLine_bitcnt (s : State) : (releaseLine s).bitcnt = s.bitcnt := rfl
@[simp] theorem releaseLine_rstat (s : State) : (releaseLine s).rstat = s.rstat := rfl
@[simp] theorem releaseLine_model (s : State) : (releaseLine s).model = s.model := rfl
@[simp] theorem releaseLine_skip (s : State) : (releaseLine s).skip = s.skip := rfl
@[simp] theorem releaseLine_armed (s : State) : (releaseLine s).armed = s.armed := rfl
@[simp] theorem releaseLine_valid (s : State) : (releaseLine s).valid = s.valid := rfl
@[simp] theorem releaseLine_cfg (s : State) : (releaseLine s).cfg = s.cfg := rfl
@[simp] theorem releaseLine_port (s : State) : (releaseLine s).port = s.port := rfl
@[simp] theorem releaseLine_pending (s : State) : (releaseLine s).pending = s.pending := rfl
@[simp] theorem releaseLine_rdata (s : State) : (releaseLine s).rdata = s.rdata := rfl
@[simp] theorem releaseLine_freeCount (s : State) : (releaseLine s).freeCount = s.freeCount := rfl

/-! ### The edge of reset (10_state.md R46) -/

@[simp] theorem applyReset_sr (s : State) : (applyReset s).sr = 0 := rfl
@[simp] theorem applyReset_frame (s : State) : (applyReset s).frame = 0 := rfl
@[simp] theorem applyReset_hum (s : State) : (applyReset s).hum = 0 := rfl
@[simp] theorem applyReset_temp (s : State) : (applyReset s).temp = 0 := rfl
@[simp] theorem applyReset_cnt (s : State) : (applyReset s).cnt = 0 := rfl
@[simp] theorem applyReset_lastMs (s : State) : (applyReset s).lastMs = 0 := rfl
@[simp] theorem applyReset_phase (s : State) : (applyReset s).phase = .idle := rfl
@[simp] theorem applyReset_bitcnt (s : State) : (applyReset s).bitcnt = 0 := rfl
@[simp] theorem applyReset_rstat (s : State) : (applyReset s).rstat = .none := rfl
@[simp] theorem applyReset_model (s : State) : (applyReset s).model = .autoDetect := rfl
@[simp] theorem applyReset_skip (s : State) : (applyReset s).skip = false := rfl
@[simp] theorem applyReset_armed (s : State) : (applyReset s).armed = true := rfl
@[simp] theorem applyReset_valid (s : State) : (applyReset s).valid = false := rfl
@[simp] theorem applyReset_cfg (s : State) : (applyReset s).cfg = s.cfg := rfl
@[simp] theorem applyReset_port (s : State) : (applyReset s).port = s.port := rfl
@[simp] theorem applyReset_pending (s : State) : (applyReset s).pending = s.pending := rfl
@[simp] theorem applyReset_rdata (s : State) : (applyReset s).rdata = 0 := rfl
@[simp] theorem applyReset_freeCount (s : State) : (applyReset s).freeCount = s.freeCount := rfl

/-! ### The arrival of an edge (10_state.md R43, R45) -/

@[simp] theorem present_sr (e : Edge) (later : List Edge) (s : State) : (present e later s).sr = s.sr := rfl
@[simp] theorem present_frame (e : Edge) (later : List Edge) (s : State) : (present e later s).frame = s.frame := rfl
@[simp] theorem present_hum (e : Edge) (later : List Edge) (s : State) : (present e later s).hum = s.hum := rfl
@[simp] theorem present_temp (e : Edge) (later : List Edge) (s : State) : (present e later s).temp = s.temp := rfl
@[simp] theorem present_cnt (e : Edge) (later : List Edge) (s : State) : (present e later s).cnt = s.cnt := rfl
@[simp] theorem present_lastMs (e : Edge) (later : List Edge) (s : State) : (present e later s).lastMs = s.lastMs := rfl
@[simp] theorem present_phase (e : Edge) (later : List Edge) (s : State) : (present e later s).phase = s.phase := rfl
@[simp] theorem present_bitcnt (e : Edge) (later : List Edge) (s : State) : (present e later s).bitcnt = s.bitcnt := rfl
@[simp] theorem present_rstat (e : Edge) (later : List Edge) (s : State) : (present e later s).rstat = s.rstat := rfl
@[simp] theorem present_model (e : Edge) (later : List Edge) (s : State) : (present e later s).model = s.model := rfl
@[simp] theorem present_skip (e : Edge) (later : List Edge) (s : State) : (present e later s).skip = s.skip := rfl
@[simp] theorem present_armed (e : Edge) (later : List Edge) (s : State) : (present e later s).armed = s.armed := rfl
@[simp] theorem present_valid (e : Edge) (later : List Edge) (s : State) : (present e later s).valid = s.valid := rfl
@[simp] theorem present_cfg (e : Edge) (later : List Edge) (s : State) : (present e later s).cfg = s.cfg := rfl
@[simp] theorem present_port (e : Edge) (later : List Edge) (s : State) : (present e later s).port = e := rfl
@[simp] theorem present_pending (e : Edge) (later : List Edge) (s : State) : (present e later s).pending = later := rfl
@[simp] theorem present_rdata (e : Edge) (later : List Edge) (s : State) : (present e later s).rdata = rdataAt e s := rfl
@[simp] theorem present_freeCount (e : Edge) (later : List Edge) (s : State) : (present e later s).freeCount = if isWrite e then s.freeCount + 1 else s.freeCount := rfl

end Sys2Proof.Machine
end

