-- ==== Sys2Proof/Laws/Ops.lean ====
section
/-! SUPPORT. What each shared operation can do, said once: codes, bytes, the shift, the wait template, the idle guard,
sequencing. -/

namespace Sys2Proof.Machine

/-! ### Codes -/

@[simp] theorem modelOfCode_modelCode (k : SensorModel) : modelOfCode (modelCode k) = some k := by cases k <;> rfl

theorem modelOfCode_eq_some {m : BitVec 2} {k : SensorModel} (h : modelOfCode m = some k) : m = modelCode k := by
  unfold modelOfCode at h
  split at h
  · cases h; assumption
  split at h
  · cases h; assumption
  split at h
  · cases h; assumption
  · cases h

@[simp] theorem phaseOfCode_phaseCode (p : Phase) : phaseOfCode (phaseCode p) = p := by cases p <;> rfl

/-- The micro-operation of each phase (30_encoding.md R74). -/
@[simp] theorem decodePhase_phaseCode (p : Phase) : decodePhase (phaseCode p) =
    match p with
    | .idle => .idle | .wake => .wake | .resp => .resp | .ackl => .ackl
    | .ackh => .ackh | .bitl => .bitl | .bith => .bith | .check => .check := by cases p <;> rfl

/-- The word select is the address without its two low bits (20_memory.md R50). -/
theorem wordSelect_toNat (a : BitVec 5) : (wordSelect a).toNat = a.toNat / 4 := by
  simp only [wordSelect, BitVec.extractLsb'_toNat, Nat.shiftRight_eq_div_pow]
  omega

/-! ### Frames -/

theorem byte0_toNat (f : Frame) : (byte0 f).toNat = f.toNat / 2 ^ 32 % 256 := by
  simp [byte0, Nat.shiftRight_eq_div_pow]

theorem byte1_toNat (f : Frame) : (byte1 f).toNat = f.toNat / 2 ^ 24 % 256 := by
  simp [byte1, Nat.shiftRight_eq_div_pow]

theorem byte2_toNat (f : Frame) : (byte2 f).toNat = f.toNat / 2 ^ 16 % 256 := by
  simp [byte2, Nat.shiftRight_eq_div_pow]

theorem byte3_toNat (f : Frame) : (byte3 f).toNat = f.toNat / 2 ^ 8 % 256 := by
  simp [byte3, Nat.shiftRight_eq_div_pow]

theorem byte4_toNat (f : Frame) : (byte4 f).toNat = f.toNat % 256 := by
  simp [byte4]

/-- Where each bit of the shifted register comes from (42_frame.md R130). -/
theorem shiftIn_getLsbD (f : Frame) (b : Bool) (n : Nat) :
    (shiftIn f b).getLsbD n = (decide (n < 40) && (if n = 0 then b else f.getLsbD (n - 1))) := by
  cases n with
  | zero => cases b <;> simp [shiftIn]
  | succ n => cases b <;> simp [shiftIn]

/-- The shift as arithmetic: `((SR << 1) | bit) mod 2^40`. -/
theorem shiftIn_toNat (f : Frame) (b : Bool) : (shiftIn f b).toNat = (2 * f.toNat + b.toNat) % 2 ^ 40 := by
  have h : shiftIn f b = (f <<< 1) + (BitVec.ofBool b).setWidth 40 := by
    rw [shiftIn, BitVec.add_eq_or_of_and_eq_zero]
    ext i hi
    cases b <;> cases i <;> simp
  rw [h]
  cases b <;> simp [BitVec.toNat_add, BitVec.toNat_shiftLeft, Nat.shiftLeft_eq] <;> omega

/-! ### The wait template (41_sampler.md R111) -/

theorem waitPulse_timeout {l : Bool} {b : Nat} {f : State → State} {s : State}
    (hl : s.port.lineIn = l) (hb : s.cnt.toNat = b) : waitPulse l b f s = raiseError .timeout s := by
  simp [waitPulse, hl, hb]

theorem waitPulse_count {l : Bool} {b : Nat} {f : State → State} {s : State}
    (hl : s.port.lineIn = l) (hb : s.cnt.toNat ≠ b) : waitPulse l b f s = countTick s := by
  simp [waitPulse, hl, hb]

theorem waitPulse_exit {l : Bool} {b : Nat} {f : State → State} {s : State}
    (hl : s.port.lineIn ≠ l) : waitPulse l b f s = f s := by
  simp [waitPulse, hl]

/-! ### The idle guard (40_commands.md R91) and sequencing (10_state.md R45) -/

theorem whenIdle_idle {f : State → State} {s : State} (h : s.phase = .idle) : whenIdle f s = f s := by
  simp [whenIdle, h]

theorem whenIdle_busy {f : State → State} {s : State} (h : s.phase ≠ .idle) : whenIdle f s = s := by
  simp [whenIdle, h]

@[simp] theorem andThen_next (s : State) (k : State → Host.Outcome State Fault Refusal) :
    andThen (.next s) k = k s := rfl

theorem andThen_eq_next {o : Host.Outcome State Fault Refusal} {k : State → Host.Outcome State Fault Refusal} {t : State}
    (h : andThen o k = .next t) : ∃ u, o = .next u ∧ k u = .next t := by
  cases o with
  | next u => exact ⟨u, rfl, h⟩
  | fault r => cases h
  | refused r => cases h

@[simp] theorem runEdges_zero (s : State) : runEdges 0 s = .next s := rfl

theorem runEdges_succ (k : Nat) (s : State) : runEdges (k + 1) s = andThen (step s) (runEdges k) := rfl

/-- A run of `j + k` edges is a run of `j`, then a run of `k`. -/
theorem runEdges_add (j k : Nat) (s : State) : runEdges (j + k) s = andThen (runEdges j s) (runEdges k) := by
  induction j generalizing s with
  | zero => simp
  | succ j ih =>
    rw [Nat.add_right_comm, runEdges_succ, runEdges_succ]
    cases h : step s with
    | next u => simp [ih]
    | fault r => rfl
    | refused r => rfl

end Sys2Proof.Machine
end

