-- ==== Sys2Proof/Laws/Edge.lean ====
section
/-! SUPPORT. Everything an edge can do: the meaning of each instruction as one equation, then the cases of a bus access,
of a tick and of a step. Later proofs cite these and do not unfold `step`. -/

namespace Sys2Proof.Machine

/-! ### Each meaning as an equation -/

@[simp] theorem exec_nop (s : State) : exec .nop s = .next s := rfl

theorem exec_busy_setup {s : State} (m : BitVec 2) (h : s.phase ≠ .idle) : exec (.setup m) s = .next s := by
  simp [exec, execSetup, whenIdle_busy h]

theorem exec_busy_read {s : State} (h : s.phase ≠ .idle) : exec .read s = .next s := by
  simp [exec, execRead, whenIdle_busy h]

theorem exec_setup_code {s : State} (k : SensorModel) (h : s.phase = .idle) :
    exec (.setup (modelCode k)) s = .next (setModel k s) := by
  simp [exec, execSetup, whenIdle_idle h]

theorem exec_setup_reserved (s : State) : exec (.setup 3) s = .next s := by
  simp [exec, execSetup, whenIdle, modelOfCode]

theorem exec_read_idle {s : State} (h : s.phase = .idle) :
    exec .read s = .next (if gateOpen s then acceptRead s else passRead s) := by
  simp [exec, execRead, whenIdle_idle h]

@[simp] theorem exec_idle (s : State) : exec .idle s = .next s := rfl

theorem exec_wake (s : State) : exec .wake s =
    .next (if s.cnt.toNat = wakeTicks s.cfg s.model then releaseLine s else countTick s) := rfl

theorem exec_resp (s : State) : exec .resp s = .next (waitPulse true s.cfg.tmoResp (nextPulse .ackl) s) := rfl
theorem exec_ackl (s : State) : exec .ackl s = .next (waitPulse false s.cfg.tmoAckl (nextPulse .ackh) s) := rfl
theorem exec_ackh (s : State) : exec .ackh s = .next (waitPulse true s.cfg.tmoAckh (nextPulse .bitl) s) := rfl
theorem exec_bitl (s : State) : exec .bitl s = .next (waitPulse false s.cfg.tmoBitl (nextPulse .bith) s) := rfl
theorem exec_bith (s : State) : exec .bith s = .next (waitPulse true s.cfg.tmoBith endBit s) := rfl

/-- `CHECK` either raises `ChecksumError` or commits one of the two conversions of a checked frame. -/
theorem exec_check_cases (s : State) :
    ((checksumOk s.sr = false ∨ (s.model = .autoDetect ∧ plausible22 s.cfg (conv22 s.sr) = false ∧
        plausible11 s.cfg (conv11 s.cfg s.sr) = false)) ∧ exec .check s = .next (raiseError .checksumError s)) ∨
    (checksumOk s.sr = true ∧ (s.model = .dht22Family ∨ (s.model = .autoDetect ∧ plausible22 s.cfg (conv22 s.sr) = true)) ∧
        exec .check s = .next (commit (conv22 s.sr) .dht22Family s)) ∨
    (checksumOk s.sr = true ∧ (s.model = .dht11 ∨ (s.model = .autoDetect ∧ plausible22 s.cfg (conv22 s.sr) = false ∧
        plausible11 s.cfg (conv11 s.cfg s.sr) = true)) ∧
        exec .check s = .next (commit (conv11 s.cfg s.sr) .dht11 s)) := by
  cases hc : checksumOk s.sr with
  | false => left; simp [exec, execCheck, hc]
  | true =>
    cases hm : s.model with
    | dht11 => simp [exec, execCheck, hc, hm]
    | dht22Family => simp [exec, execCheck, hc, hm]
    | autoDetect =>
      cases h22 : plausible22 s.cfg (conv22 s.sr) <;> cases h11 : plausible11 s.cfg (conv11 s.cfg s.sr) <;>
        simp [exec, execCheck, autoDetect, hc, hm, h22, h11]

/-! ### The bus access -/

theorem gateOpen_eq_true (s : State) : gateOpen s = true ↔
    s.armed = true ∨ minPeriod s.cfg s.model ≤ (s.port.nowMs - s.lastMs).toNat := by
  simp only [gateOpen, Bool.or_eq_true, decide_eq_true_eq]
  exact Iff.rfl

/-- The modular difference of two words, as the rule writes it (40_commands.md R95). -/
theorem elapsed_toNat (a b : Word) : (a - b).toNat = (a.toNat + 2 ^ 32 - b.toNat) % 2 ^ 32 := by
  have := b.isLt
  rw [BitVec.toNat_sub]
  congr 1
  omega

/-- A command word decodes to a command or is reserved (30_encoding.md R71). -/
theorem decode_command_cases (w : Word) :
    decode (.command w) = .ok .nop ∨ decode (.command w) = .ok (.setup (argField w)) ∨ decode (.command w) = .ok .read ∨
      ∃ op, decode (.command w) = .error (.reservedOp op) := by
  simp only [decode, decodeCommand]
  split
  · simp
  split
  · simp
  split
  · simp
  · simp

/-- All a bus access can do to the block: nothing, a `SETUP`, or a `READ`, the last two only in `IDLE`. -/
theorem busAccess_cases (s : State) (hr : s.port.rst = false) :
    busAccess s = .next s ∨
    (s.phase = .idle ∧ ∃ k, Commands s.port (.setup (modelCode k)) ∧ busAccess s = .next (setModel k s)) ∨
    (s.phase = .idle ∧ Commands s.port .read ∧ gateOpen s = true ∧ busAccess s = .next (acceptRead s)) ∨
    (s.phase = .idle ∧ Commands s.port .read ∧ gateOpen s = false ∧ busAccess s = .next (passRead s)) := by
  by_cases hw : (s.port.sel && s.port.wr) = true
  · by_cases ha : wordSelect s.port.addr = 0
    · have hwr : isWrite s.port = true := by simpa [isWrite, hr] using hw
      rcases decode_command_cases s.port.wdata with h | h | h | ⟨op, h⟩
      · left; simp [busAccess, hw, busWrite, ha, h]
      · by_cases hp : s.phase = .idle
        · cases hk : modelOfCode (argField s.port.wdata) with
          | none => left; simp [busAccess, hw, busWrite, ha, h, exec, execSetup, whenIdle, hk]
          | some k =>
            have hm := modelOfCode_eq_some hk
            refine .inr (.inl ⟨hp, k, ⟨hwr, ha, hm ▸ h⟩, ?_⟩)
            simp [busAccess, hw, busWrite, ha, h, exec, execSetup, whenIdle_idle hp, hk]
        · left; simp [busAccess, hw, busWrite, ha, h, exec_busy_setup _ hp]
      · by_cases hp : s.phase = .idle
        · cases hg : gateOpen s with
          | true =>
            refine .inr (.inr (.inl ⟨hp, ⟨hwr, ha, h⟩, rfl, ?_⟩))
            simp [busAccess, hw, busWrite, ha, h, exec_read_idle hp, hg]
          | false =>
            refine .inr (.inr (.inr ⟨hp, ⟨hwr, ha, h⟩, rfl, ?_⟩))
            simp [busAccess, hw, busWrite, ha, h, exec_read_idle hp, hg]
        · left; simp [busAccess, hw, busWrite, ha, h, exec_busy_read hp]
      · left; simp [busAccess, hw, busWrite, ha, h]
    · left; simp only [busAccess, hw, busWrite, if_neg ha, if_true]
  · left; simp [busAccess, hw]

/-- An edge that writes a command executes that command. -/
theorem busAccess_command {s : State} {i : Instr} (h : Commands s.port i) : busAccess s = exec i s := by
  obtain ⟨hw, ha, hd⟩ := h
  simp only [isWrite, Bool.and_eq_true, Bool.not_eq_true'] at hw
  simp [busAccess, busWrite, hw, ha, hd]

theorem busAccess_read {s : State} (h : s.port.wr = false) : busAccess s = .next s := by simp [busAccess, h]

theorem busAccess_noAccess {s : State} (h : s.port.sel = false) : busAccess s = .next s := by simp [busAccess, h]

theorem busAccess_otherWord {s : State} (h : wordSelect s.port.addr ≠ 0) : busAccess s = .next s := by
  simp only [busAccess, busWrite, if_neg h, ite_self]

theorem busAccess_reserved {s : State} {d : DecodeError} (h : decode (.command s.port.wdata) = .error d) :
    busAccess s = .next s := by
  cases d
  simp only [busAccess, busWrite, h, ite_self]

/-- What no bus access changes: the sequencer's leftovers, the cached `Reading`, the inputs, `rdata`. -/
theorem busAccess_frame (s : State) (hr : s.port.rst = false) : ∃ t, busAccess s = .next t ∧
    t.frame = s.frame ∧ t.hum = s.hum ∧ t.temp = s.temp ∧ t.valid = s.valid ∧ t.rstat = s.rstat ∧ t.cfg = s.cfg ∧
    t.port = s.port ∧ t.pending = s.pending ∧ t.rdata = s.rdata ∧ t.freeCount = s.freeCount := by
  rcases busAccess_cases s hr with h | ⟨_, k, _, h⟩ | ⟨_, _, _, h⟩ | ⟨_, _, _, h⟩ <;> exact ⟨_, h, by simp⟩

/-- A busy block takes no command (40_commands.md R91). -/
theorem busAccess_busy {s : State} (hr : s.port.rst = false) (h : s.phase ≠ .idle) : busAccess s = .next s := by
  rcases busAccess_cases s hr with h' | ⟨hp, -⟩ | ⟨hp, -⟩ | ⟨hp, -⟩
  · exact h'
  all_goals exact absurd hp h

/-! ### The tick -/

/-- The phase that follows the phases that only wait. -/
def afterWait : Phase → Option Phase
  | .resp => some .ackl
  | .ackl => some .ackh
  | .ackh => some .bitl
  | .bitl => some .bith
  | .idle => none
  | .wake => none
  | .bith => none
  | .check => none

@[simp] theorem tick_none {s : State} (h : s.port.tickEn = false) : tick s = .next s := by simp [tick, h]

theorem tick_idle {s : State} (h : s.phase = .idle) : tick s = .next s := by
  cases ht : s.port.tickEn <;> simp [tick, ht, h]

theorem tick_wake {s : State} (ht : s.port.tickEn = true) (h : s.phase = .wake) :
    tick s = .next (if s.cnt.toNat = wakeTicks s.cfg s.model then releaseLine s else countTick s) := by
  simp [tick, ht, h, exec_wake]

theorem tick_check {s : State} (ht : s.port.tickEn = true) (h : s.phase = .check) : tick s = exec .check s := by
  simp [tick, ht, h]

/-- A waiting phase whose level is still there at its bound raises `Timeout` (60_exceptions.md R161). -/
theorem tick_timeout {s : State} {l : Bool} {b : Nat} (ht : s.port.tickEn = true)
    (hw : waitsFor s.cfg s.phase = some (l, b)) (hl : s.port.lineIn = l) (hb : s.cnt.toNat = b) :
    tick s = .next (raiseError .timeout s) := by
  cases hp : s.phase <;> simp [hp, waitsFor] at hw <;> obtain ⟨rfl, rfl⟩ := hw <;>
    simp [tick, ht, hp, exec_resp, exec_ackl, exec_ackh, exec_bitl, exec_bith, waitPulse_timeout hl hb]

/-- A waiting phase whose level is still there below its bound counts. -/
theorem tick_count {s : State} {l : Bool} {b : Nat} (ht : s.port.tickEn = true)
    (hw : waitsFor s.cfg s.phase = some (l, b)) (hl : s.port.lineIn = l) (hb : s.cnt.toNat ≠ b) :
    tick s = .next (countTick s) := by
  cases hp : s.phase <;> simp [hp, waitsFor] at hw <;> obtain ⟨rfl, rfl⟩ := hw <;>
    simp [tick, ht, hp, exec_resp, exec_ackl, exec_ackh, exec_bitl, exec_bith, waitPulse_count hl hb]

/-- A phase that only waits passes to the next at the other level. -/
theorem tick_pass {s : State} {l : Bool} {b : Nat} {p : Phase} (ht : s.port.tickEn = true)
    (hw : waitsFor s.cfg s.phase = some (l, b)) (hn : afterWait s.phase = some p) (hl : s.port.lineIn ≠ l) :
    tick s = .next (nextPulse p s) := by
  cases hp : s.phase <;> simp [hp, waitsFor] at hw <;> obtain ⟨rfl, rfl⟩ := hw <;> simp [hp, afterWait] at hn <;>
    cases hn <;> simp [tick, ht, hp, exec_resp, exec_ackl, exec_ackh, exec_bitl, waitPulse_exit hl]

/-- The exit of `BITH`. -/
theorem tick_endBit {s : State} (ht : s.port.tickEn = true) (hp : s.phase = .bith) (hl : s.port.lineIn = false) :
    tick s = .next (endBit s) := by
  simp [tick, ht, hp, exec_bith, waitPulse, hl]

/-- All a tick can do. -/
theorem tick_cases (s : State) :
    ((s.port.tickEn = false ∨ s.phase = .idle) ∧ tick s = .next s) ∨
    (s.port.tickEn = true ∧ s.phase = .wake ∧ s.cnt.toNat = wakeTicks s.cfg s.model ∧ tick s = .next (releaseLine s)) ∨
    (s.port.tickEn = true ∧ s.phase = .wake ∧ s.cnt.toNat ≠ wakeTicks s.cfg s.model ∧ tick s = .next (countTick s)) ∨
    (s.port.tickEn = true ∧ ∃ l b, waitsFor s.cfg s.phase = some (l, b) ∧ s.port.lineIn = l ∧ s.cnt.toNat = b ∧
      tick s = .next (raiseError .timeout s)) ∨
    (s.port.tickEn = true ∧ ∃ l b, waitsFor s.cfg s.phase = some (l, b) ∧ s.port.lineIn = l ∧ s.cnt.toNat ≠ b ∧
      tick s = .next (countTick s)) ∨
    (s.port.tickEn = true ∧ ∃ l b p, waitsFor s.cfg s.phase = some (l, b) ∧ afterWait s.phase = some p ∧
      s.port.lineIn ≠ l ∧ tick s = .next (nextPulse p s)) ∨
    (s.port.tickEn = true ∧ s.phase = .bith ∧ s.port.lineIn = false ∧ tick s = .next (endBit s)) ∨
    (s.port.tickEn = true ∧ s.phase = .check ∧ tick s = exec .check s) := by
  cases ht : s.port.tickEn with
  | false => left; simp [ht]
  | true =>
    have wait : ∀ l b p, waitsFor s.cfg s.phase = some (l, b) → afterWait s.phase = some p → _ := fun l b p hw hn =>
      show (s.port.lineIn = l ∧ s.cnt.toNat = b) ∨ (s.port.lineIn = l ∧ s.cnt.toNat ≠ b) ∨ s.port.lineIn ≠ l by
        by_cases hl : s.port.lineIn = l <;> by_cases hb : s.cnt.toNat = b <;> simp [hl, hb]
    cases hp : s.phase with
    | idle => left; simp [tick_idle hp]
    | wake =>
      by_cases hc : s.cnt.toNat = wakeTicks s.cfg s.model
      · right; left; simp [tick_wake ht hp, hc]
      · right; right; left; simp [tick_wake ht hp, hc]
    | check => simp [tick_check ht hp, waitsFor]
    | bith =>
      have hw : waitsFor s.cfg s.phase = some (true, s.cfg.tmoBith) := by simp [hp, waitsFor]
      by_cases hl : s.port.lineIn = true
      · by_cases hb : s.cnt.toNat = s.cfg.tmoBith
        · exact .inr (.inr (.inr (.inl ⟨rfl, _, _, hp ▸ hw, hl, hb, tick_timeout ht hw hl hb⟩)))
        · exact .inr (.inr (.inr (.inr (.inl ⟨rfl, _, _, hp ▸ hw, hl, hb, tick_count ht hw hl hb⟩))))
      · have hl' : s.port.lineIn = false := by simpa using hl
        exact .inr (.inr (.inr (.inr (.inr (.inr (.inl ⟨rfl, rfl, hl', tick_endBit ht hp hl'⟩))))))
    | resp | ackl | ackh | bitl =>
      obtain ⟨l, b, hw⟩ : ∃ l b, waitsFor s.cfg s.phase = some (l, b) := by simp [hp, waitsFor]
      obtain ⟨p, hn⟩ : ∃ p, afterWait s.phase = some p := by simp [hp, afterWait]
      rcases wait l b p hw hn with ⟨hl, hb⟩ | ⟨hl, hb⟩ | hl
      · exact .inr (.inr (.inr (.inl ⟨rfl, _, _, hp ▸ hw, hl, hb, tick_timeout ht hw hl hb⟩)))
      · exact .inr (.inr (.inr (.inr (.inl ⟨rfl, _, _, hp ▸ hw, hl, hb, tick_count ht hw hl hb⟩))))
      · exact .inr (.inr (.inr (.inr (.inr (.inl ⟨rfl, _, _, _, hp ▸ hw, hp ▸ hn, hl, tick_pass ht hw hn hl⟩)))))

/-- What no tick changes: the time stamp, the host's flags, the parameters, the inputs, `rdata`. -/
theorem tick_frame (s : State) : ∃ t, tick s = .next t ∧
    t.lastMs = s.lastMs ∧ t.skip = s.skip ∧ t.armed = s.armed ∧ t.cfg = s.cfg ∧
    t.port = s.port ∧ t.pending = s.pending ∧ t.rdata = s.rdata ∧ t.freeCount = s.freeCount := by
  rcases tick_cases s with ⟨_, h⟩ | ⟨_, _, _, h⟩ | ⟨_, _, _, h⟩ | ⟨_, _, _, _, _, _, h⟩ | ⟨_, _, _, _, _, _, h⟩ |
    ⟨_, _, _, _, _, _, _, h⟩ | ⟨_, _, _, h⟩ | ⟨_, _, h⟩
  case inr.inr.inr.inr.inr.inr.inr =>
    rcases exec_check_cases s with ⟨_, h'⟩ | ⟨_, _, h'⟩ | ⟨_, _, h'⟩ <;> exact ⟨_, h.trans h', by simp⟩
  all_goals exact ⟨_, h, by simp⟩

/-! ### The step -/

theorem step_nil {s : State} (h : s.pending = []) : step s = .next s := by simp [step, h]

theorem step_cons {s : State} {e : Edge} {later : List Edge} (h : s.pending = e :: later) :
    step s = clockEdge (present e later s) := by simp [step, h]

theorem step_reset {s : State} {e : Edge} {later : List Edge} (h : s.pending = e :: later) (hr : e.rst = true) :
    step s = .next (applyReset (present e later s)) := by simp [step_cons h, clockEdge, hr]

theorem step_run {s : State} {e : Edge} {later : List Edge} (h : s.pending = e :: later) (hr : e.rst = false) :
    step s = andThen (busAccess (present e later s)) tick := by simp [step_cons h, clockEdge, hr]

theorem step_busy {s : State} {e : Edge} {later : List Edge} (h : s.pending = e :: later) (hr : e.rst = false)
    (hp : s.phase ≠ .idle) : step s = tick (present e later s) := by
  rw [step_run h hr, busAccess_busy (by simpa using hr) (by simpa using hp), andThen_next]

/-- The inputs and the edges to come are no state of the block: presenting an edge changes nothing of it. -/
theorem present_sameBlock (e : Edge) (later : List Edge) (s : State) : SameBlock s (present e later s) := rfl

end Sys2Proof.Machine
end

