-- ==== Sys2Proof/Laws/Bounds.lean ====
section
/-! SUPPORT. What the constraints on the parameters (00_scope.md R6 to R11) give every proof that counts ticks, and what a
run of shifts leaves in the frame (42_frame.md R133). -/

namespace Sys2Proof.Machine

/-- The wake length of every model fits `CNT` and is not 0. -/
theorem wakeTicks_bounds {c : Cfg} (h : c.Ok) (m : SensorModel) : 1 ≤ wakeTicks c m ∧ wakeTicks c m < 65536 := by
  obtain ⟨⟨h11, h22, hA, hB⟩, -, -, -, l11, l22, lAuto, -⟩ := h
  have p11 : 1 ≤ c.tWake11 := Nat.pos_of_ne_zero fun h => by simp [h] at h11
  have p22 : 1 ≤ c.tWake22 := Nat.pos_of_ne_zero fun h => by simp [h] at h22
  cases m <;> simp only [wakeTicks] <;> omega

/-- The bound of every waiting phase fits `CNT` and is not 0. -/
theorem waitsFor_bounds {c : Cfg} (h : c.Ok) {p : Phase} {l : Bool} {b : Nat} (hw : waitsFor c p = some (l, b)) :
    1 ≤ b ∧ b < 65536 := by
  obtain ⟨-, ⟨hl, hh, hb, hr⟩, ⟨ht, htb⟩, -, -, -, -, lr, ll, lh, lb, lt, -⟩ := h
  have pl : 1 ≤ c.tmoAckl := Nat.pos_of_ne_zero fun h => by simp [h] at hl
  have ph : 1 ≤ c.tmoAckh := Nat.pos_of_ne_zero fun h => by simp [h] at hh
  have pb : 1 ≤ c.tmoBitl := Nat.pos_of_ne_zero fun h => by simp [h] at hb
  cases p <;> simp [waitsFor] at hw <;> obtain ⟨-, rfl⟩ := hw <;> omega

/-- A phase that waits is not `IDLE`. -/
theorem phase_ne_idle_of_waitsFor {c : Cfg} {p : Phase} {l : Bool} {b : Nat} (h : waitsFor c p = some (l, b)) :
    p ≠ .idle := by
  rintro rfl
  simp [waitsFor] at h

/-- Below a bound that fits `CNT` one more tick does not wrap (41_sampler.md R119). -/
theorem countTick_cnt_toNat {s : State} {b : Nat} (hb : b < 65536) (h : s.cnt.toNat < b) :
    (countTick s).cnt.toNat = s.cnt.toNat + 1 := by
  simp [BitVec.toNat_add]
  omega

/-- The bits of a frame after a run of shifts: the last shifted in is bit 0. -/
theorem foldl_shiftIn_getLsbD (bs : List Bool) (f : Frame) (n : Nat) (hn : n < 40) :
    (bs.foldl shiftIn f).getLsbD n = if n < bs.length then bs.getD (bs.length - 1 - n) false else f.getLsbD (n - bs.length) := by
  induction bs generalizing f with
  | nil => simp
  | cons b bs ih =>
    rw [List.foldl_cons, ih]
    rcases Nat.lt_trichotomy n bs.length with h | rfl | h
    · have e : (b :: bs).length - 1 - n = bs.length - 1 - n + 1 := by simp; omega
      rw [if_pos h, if_pos (by simp; omega), e, List.getD_cons_succ]
    · rw [if_neg (by omega), if_pos (by simp), shiftIn_getLsbD]
      simp
    · have h0 : n - bs.length ≠ 0 := by omega
      have h1 : n - bs.length < 40 := by omega
      have e : n - (b :: bs).length = n - bs.length - 1 := by simp; omega
      rw [if_neg (by omega), if_neg (by simp; omega), shiftIn_getLsbD, e]
      simp [h0, h1]

end Sys2Proof.Machine
end

