-- ==== Sys2Proof/Laws/PerInstr.lean ====
section
/-! SUPPORT. A law of every instruction as a term, one lemma per constructor: the code `encode` gives it has no bit
that its row of spec/opcode_table.json does not decode (30_encoding.md R70: software should write 0 there). -/

namespace Sys2Proof.Laws.EncodesInRow

/-- A code as a word. -/
def codeBits : Code → Word
  | .command w => w
  | .phase p => p.setWidth 32

/-- The code of `i` lies within the bits its row decodes. -/
def Statement (i : Instr) : Prop := codeBits (encode i) &&& decodedBits i = codeBits (encode i)

theorem nop : Statement .nop := by unfold Statement; decide
theorem setup (m : BitVec 2) : Statement (.setup m) := by unfold Statement; revert m; decide
theorem read : Statement .read := by unfold Statement; decide
theorem idle : Statement .idle := by unfold Statement; decide
theorem wake : Statement .wake := by unfold Statement; decide
theorem resp : Statement .resp := by unfold Statement; decide
theorem ackl : Statement .ackl := by unfold Statement; decide
theorem ackh : Statement .ackh := by unfold Statement; decide
theorem bitl : Statement .bitl := by unfold Statement; decide
theorem bith : Statement .bith := by unfold Statement; decide
theorem check : Statement .check := by unfold Statement; decide

end Sys2Proof.Laws.EncodesInRow
end

