-- ==== Sys2Proof/Tests/Slice0.lean ====
section
/-! SUPPORT. The model's own tests. Expected values are those of spec/95_test_vectors.md (its row ids stand beside
them) and of the rules' own examples; then, for every obligation with hypotheses, a witness that meets them. -/

open Sys2Proof Sys2Proof.Machine

namespace Sys2Proof.Tests

/-- The outcome is a next state with this property. -/
def gives (o : Host.Outcome State Fault Refusal) (p : State → Bool) : Bool :=
  match o with
  | .next t => p t
  | .fault _ => false
  | .refused _ => false

/-- An idle block of this model that last read at `last`, not armed. -/
def idle (m : SensorModel) (last : Word) : State := { State.reset with model := m, armed := false, lastMs := last }

/-- The block seen at an edge with this time. -/
def at_ms (s : State) (now : Word) : State := { s with port := { Edge.rest with nowMs := now } }

/-- A tick with this line level. -/
def tickOf (level : Bool) : Edge := { Edge.rest with tickEn := true, lineIn := level }

/-- A running DHT22 transaction at a tick. -/
def mid (p : Phase) (cnt : Ticks) (bitcnt : BitVec 6) (level : Bool) : State :=
  { State.reset with
    model := .dht22Family, armed := false, phase := p, cnt := cnt, bitcnt := bitcnt, port := tickOf level }

/-- The block at the `CHECK` tick with this frame. -/
def checking (m : SensorModel) (f : Frame) : State :=
  { State.reset with model := m, armed := false, phase := .check, bitcnt := 40, cnt := 1, sr := f, port := tickOf true }

/-- The end state of program P1. -/
def afterP1 : State :=
  { State.reset with
    bitcnt := 40, cnt := 1, sr := 0x028C0111A0, frame := 0x028C0111A0, hum := 652, temp := 273, lastMs := 5000,
    model := .dht22Family, armed := false, valid := true }

/-- A bus write. -/
def write (a : BitVec 5) (w : Word) : Edge := { Edge.rest with sel := true, wr := true, addr := a, wdata := w }

/-- A bus read. -/
def read (a : BitVec 5) : Edge := { Edge.rest with sel := true, addr := a }

/-- These edges come next. -/
def facing (s : State) (es : List Edge) : State := { s with pending := es }

/-! ### Well-formedness and decoding (30_encoding.md R70 to R74, R80) -/

theorem test_setup_code_3_is_ill_formed : (Instr.setup 3).wellFormed = false := by decide
theorem test_setup_code_2_is_well_formed : (Instr.setup 2).wellFormed = true := by decide

theorem test_decode_commands :
    decodeTableWord 32 0x00000000 = some .nop ∧ decodeTableWord 32 0x00000001 = some (.setup 0) ∧
    decodeTableWord 32 0x00000011 = some (.setup 1) ∧ decodeTableWord 32 0x00000021 = some (.setup 2) ∧
    decodeTableWord 32 0x00000002 = some .read := by decide

theorem test_decode_phases :
    decodeTableWord 8 0 = some .idle ∧ decodeTableWord 8 1 = some .wake ∧ decodeTableWord 8 2 = some .resp ∧
    decodeTableWord 8 3 = some .ackl ∧ decodeTableWord 8 4 = some .ackh ∧ decodeTableWord 8 5 = some .bitl ∧
    decodeTableWord 8 6 = some .bith ∧ decodeTableWord 8 7 = some .check := by decide

/-- C4, C19, C20: reserved words, and ignored bits. -/
theorem test_decode_reserved :
    decode (.command 0x00000003) = .error (.reservedOp 3) ∧ decode (.command 0x0000000F) = .error (.reservedOp 15) ∧
    decode (.command 0x00000031) = .ok (.setup 3) ∧ decode (.command 0xFFFFFFC2) = .ok .read ∧
    decode (.command 0xFFFFFFF0) = .ok .nop := by decide

theorem test_fetch_places_a_command :
    gives (step (State.reset.withFetchWord 32 0x00000021)) (fun t => t.model == .dht22Family && statusWord t == 0x60)
      = true := by decide

theorem test_fetch_places_a_phase :
    gives (step (State.reset.withFetchWord 8 1)) (fun t => t.phase == .wake && t.cnt == 1) = true := by decide

/-! ### Commands (vectors C) -/

theorem test_nop_C1 : gives (exec .nop State.reset) (fun t => t == State.reset && statusWord t == 0x40) = true := by
  decide
theorem test_setup_C3 : gives (exec (.setup 1) State.reset) (fun t => t.model == .dht11 && statusWord t == 0x50)
    = true := by decide
theorem test_setup_C17_busy : gives (exec (.setup 1) (mid .wake 1 0 false)) (fun t => statusWord t == 0x124)
    = true := by decide
theorem test_read_C12_gate_closed :
    gives (exec .read (at_ms (idle .dht22Family 0xFFFFFF00) 0x6CF)) (fun t =>
      statusWord t == 0x28 && t.lastMs == 0xFFFFFF00) = true := by decide
theorem test_read_C13_gate_opens_at_the_period :
    gives (exec .read (at_ms (idle .dht22Family 0xFFFFFF00) 0x6D0)) (fun t =>
      statusWord t == 0x124 && t.lastMs == 0x6D0 && t.cnt == 0) = true := by decide

/-! ### The sampler (the trace of W1, the limits of W4 to W13) -/

theorem test_idle_X3 : gives (exec .idle { State.reset with port := tickOf true })
    (fun t => t == { State.reset with port := tickOf true }) = true := by decide
theorem test_wake_tick_1000 : gives (exec .wake (mid .wake 999 0 false)) (fun t => t.phase == .wake && t.cnt == 1000)
    = true := by decide
theorem test_wake_tick_1001 : gives (exec .wake (mid .wake 1000 0 false)) (fun t => t.phase == .resp && t.cnt == 0)
    = true := by decide
theorem test_resp_W3 : gives (exec .resp (mid .resp 99 0 true)) (fun t => t.phase == .resp && t.cnt == 100) = true := by
  decide
theorem test_resp_W4 : gives (exec .resp (mid .resp 100 0 true)) (fun t => t.phase == .idle && t.rstat == .timeout)
    = true := by decide
theorem test_ackl_tick_1112 : gives (exec .ackl (mid .ackl 80 0 true)) (fun t => t.phase == .ackh && t.cnt == 1)
    = true := by decide
theorem test_ackl_W6 : gives (exec .ackl (mid .ackl 100 0 false)) (fun t => t.phase == .idle && t.rstat == .timeout)
    = true := by decide
theorem test_ackh_tick_1192 : gives (exec .ackh (mid .ackh 80 0 false)) (fun t =>
    t.phase == .bitl && t.cnt == 1 && t.bitcnt == 0) = true := by decide
theorem test_ackh_W8 : gives (exec .ackh (mid .ackh 100 0 true)) (fun t => t.phase == .idle && t.rstat == .timeout)
    = true := by decide
theorem test_bitl_tick_1242 : gives (exec .bitl (mid .bitl 50 0 true)) (fun t => t.phase == .bith && t.cnt == 1)
    = true := by decide
theorem test_bitl_W10 : gives (exec .bitl (mid .bitl 100 0 false)) (fun t => t.phase == .idle && t.rstat == .timeout)
    = true := by decide

/-- R118's example: a width of 28 is a 0, of 29 a 1 (F1 for the shift). -/
theorem test_bith_threshold :
    gives (exec .bith { mid .bith 28 7 false with sr := 1 }) (fun t => t.sr == 2 && t.bitcnt == 8 && t.phase == .bitl)
      = true ∧
    gives (exec .bith { mid .bith 29 7 false with sr := 1 }) (fun t => t.sr == 3 && t.cnt == 1) = true := by decide

/-- F3 and tick 4628. -/
theorem test_bith_F3 : gives (exec .bith { mid .bith 26 39 false with sr := 0x01460088D0 }) (fun t =>
    t.sr == 0x028C0111A0 && t.bitcnt == 40 && t.phase == .check && !crit t) = true := by decide

/-- F4 of 42_frame.md R133, in two halves: the bits in order of arrival. -/
theorem test_frame_F4 :
    [false, false, false, false, false, false, true, false, true, false, false, false, true, true, false, false,
      false, false, false, false, false, false, false, true].foldl shiftIn 0 = 0x028C01 ∧
    [false, false, false, true, false, false, false, true, true, false, true, false, false, false, false, false].foldl
      shiftIn 0x028C01 = 0x028C0111A0 := by simp [shiftIn]

/-! ### The check (vectors K, V) -/

theorem test_checksum_K1_to_K7 :
    [0x028C0111A0, 0x028C0110A0, 0x028C0111A1, 0x0000000000, 0xFFFFFFFFFF, 0x8080000000, 0x038C0011A0].map checksumOk
      = [true, false, false, true, false, true, true] := by decide
theorem test_check_V3 : gives (exec .check (checking .dht22Family 0x0190806576)) (fun t =>
    t.hum == 400 && t.temp == 0xFF9B && t.model == .dht22Family && t.rstat == .none && t.valid) = true := by decide
theorem test_check_V2_V12_autodetect :
    gives (exec .check (checking .autoDetect 0x190015002E)) (fun t =>
      t.hum == 250 && t.temp == 210 && t.model == .dht11 && t.frame == 0x190015002E) = true ∧
    gives (exec .check (checking .autoDetect 0x28000583B0)) (fun t =>
      t.rstat == .checksumError && t.model == .autoDetect && !t.valid && t.phase == .idle) = true := by decide

/-! ### The edge and the window (vectors C21, M, X) -/

theorem test_edge_C21 : gives (step (facing { State.reset with model := .dht22Family }
      [{ write 0 2 with tickEn := true }])) (fun t => statusWord t == 0x124 && t.cnt == 1) = true := by decide

theorem test_window_M1_to_M9 :
    [0x00, 0x04, 0x08, 0x0C, 0x10, 0x14, 0x18, 0x1C, 0x06].map (readWindow afterP1) =
      [0, 0x140A0, 0x8C0111A0, 0x2, 0x28C, 0x111, 0x1388, 0, 0x140A0] := by decide

theorem test_window_M13_sign : readWindow { afterP1 with temp := 0xFF9B } 0x14 = 0xFFFFFF9B := by decide

theorem test_edge_M11_write_ignored : gives (step (facing afterP1 [write 0x1C 2])) (fun t =>
    t.phase == .idle && t.skip == false && statusWord t == 0x140A0) = true := by decide

/-- M15: the read sees the state before the edge, the tick commits. -/
theorem test_edge_M15 : gives (step (facing
      { checking .dht22Family 0x028C0111A0 with lastMs := 5000 } [{ read 0x04 with tickEn := true }])) (fun t =>
    t.rdata == 0x14724 && statusWord t == 0x140A0) = true := by decide

theorem test_edge_X2 : gives (step (facing (mid .wake 500 0 false) [{ write 0 0x21 with rst := true, tickEn := true }]))
    (fun t => t.phase == .idle && t.model == .autoDetect && t.cnt == 0 && t.armed && t.rdata == 0) = true := by decide

/-! ### Witnesses: for each obligation with hypotheses, concrete values that meet them, clause by clause -/

theorem witness_ResetEdgeGivesTheResetValues :
    (facing (mid .bith 5 17 true) [{ write 0 0x21 with rst := true }]).pending = { write 0 0x21 with rst := true } :: [] ∧
    ({ write 0 0x21 with rst := true } : Edge).rst = true := by decide

/-- An edge that writes a command, one that writes none, a phase with a tick, one without. -/
theorem witness_StepRunsTheDecodedInstruction :
    (facing State.reset [write 0 2]).pending = write 0 2 :: [] ∧ (write 0 2).rst = false ∧ Commands (write 0 2) .read ∧
    (facing State.reset [tickOf true]).pending = tickOf true :: [] ∧ (tickOf true).rst = false ∧
    (∀ i, ¬ Commands (tickOf true) i) ∧
    (mid .wake 1 0 true).port.tickEn = true ∧ State.reset.port.tickEn = false := by
  refine ⟨rfl, rfl, by decide, rfl, rfl, ?_, rfl, rfl⟩
  rintro i ⟨h, -⟩
  exact absurd h (by decide)

/-- Two reset edges; a read with a tick; a command; an accepted `READ` with a tick, at exactly the period. -/
theorem witness_EdgeEventsHappenInOrder :
    (({ Edge.rest with rst := true } : Edge).rst = true ∧ ({ write 0 0x21 with rst := true } : Edge).rst = true) ∧
    ((facing afterP1 [read 0x18]).pending = read 0x18 :: [] ∧ (read 0x18).rst = false ∧ (read 0x18).sel = true ∧
      (read 0x18).wr = false) ∧
    ((facing afterP1 [write 3 0x11]).pending = write 3 0x11 :: [] ∧ Commands (write 3 0x11) (.setup 1)) ∧
    (let e : Edge := { write 0 2 with tickEn := true, nowMs := 7000 }
     (facing afterP1 [e]).pending = e :: [] ∧ afterP1.cfg.Ok ∧ afterP1.phase = .idle ∧ Commands e .read ∧
       e.tickEn = true ∧ afterP1.armed = false ∧
       minPeriod afterP1.cfg afterP1.model = (e.nowMs - afterP1.lastMs).toNat) := by decide

/-- The first and the last byte address of every word; an edge with no access, its other inputs those of a write. -/
theorem witness_RegisterReadsReturnTheirWord :
    (let e := { write 0 2 with sel := false }
     (facing State.reset [e]).pending = e :: [] ∧ e.rst = false ∧ e.sel = false) ∧
    ∀ k : Fin 8, ∀ j : Fin 4, (read (BitVec.ofNat 5 (4 * k.val + j.val))).addr.toNat / 4 = k.val ∧
      (read (BitVec.ofNat 5 (4 * k.val + j.val))).rst = false ∧ (read (BitVec.ofNat 5 (4 * k.val + j.val))).sel = true ∧
      (read (BitVec.ofNat 5 (4 * k.val + j.val))).wr = false := by decide

/-- The last address of word 0, the first of word 1 and the last of word 7. -/
theorem witness_OnlyWritesToCmdAct :
    (facing State.reset [write 3 0x11]).pending = write 3 0x11 :: [] ∧ isWrite (write 3 0x11) = true ∧
    (write 3 0x11).addr.toNat / 4 = 0 ∧ decode (.command (write 3 0x11).wdata) = .ok (.setup 1) ∧
    isWrite (write 4 0x11) = true ∧ (write 4 0x11).addr.toNat / 4 ≠ 0 ∧
    isWrite (write 31 0x11) = true ∧ (write 31 0x11).addr.toNat / 4 ≠ 0 := by decide

theorem witness_DecoderFollowsTheOpcodeTable :
    (0xFFFFFFF0 : Word) &&& 0x0000000F = 0x00000000 ∧ (0xFFFFFFF1 : Word) &&& 0x0000000F = 0x00000001 ∧
    (0xFFFFFFF2 : Word) &&& 0x0000000F = 0x00000002 ∧ 3 ≤ ((0xFFFFFFF3 : Word) &&& 0x0000000F).toNat ∧
    3 ≤ ((0x0000000F : Word) &&& 0x0000000F).toNat := by decide

/-- The least and the greatest reserved `OP`, the reserved model code; two words of one command. -/
theorem witness_ReservedWordsAndIgnoredBitsHaveNoEffect :
    (facing (mid .wake 1 0 true) [write 0 3]).pending = write 0 3 :: [] ∧
    isWrite (write 0 3) = true ∧ wordSelect (write 0 3).addr = 0 ∧ 3 ≤ ((write 0 3).wdata &&& 0x0000000F).toNat ∧
    3 ≤ ((write 0 0xF).wdata &&& 0x0000000F).toNat ∧ (write 0 0xFFFFFFF1).wdata &&& 0x0000003F = 0x00000031 ∧
    ((write 0 0x21).wdata &&& 0x0000000F = (0xFFFFFFE1 : Word) &&& 0x0000000F ∧
      (write 0 0x21).wdata &&& 0x00000030 = (0xFFFFFFE1 : Word) &&& 0x00000030) := by decide

theorem witness_SetupSetsModelAndArms :
    afterP1.phase = .idle ∧ exec (.setup (modelCode .dht11)) afterP1 = .next { afterP1 with model := .dht11, armed := true } :=
  ⟨rfl, rfl⟩

/-- Armed; not armed at exactly the period; one millisecond before it. -/
theorem witness_ReadIsGatedByTheMinimumPeriod :
    (State.reset.phase = .idle ∧ State.reset.armed = true) ∧
    (let s := at_ms afterP1 7000
     s.phase = .idle ∧ s.armed = false ∧
      minPeriod s.cfg s.model ≤ (s.port.nowMs.toNat + 2 ^ 32 - s.lastMs.toNat) % 2 ^ 32) ∧
    (let s := at_ms afterP1 6999
     s.phase = .idle ∧ s.armed = false ∧
      (s.port.nowMs.toNat + 2 ^ 32 - s.lastMs.toNat) % 2 ^ 32 < minPeriod s.cfg s.model) := by decide

theorem witness_CommandsWhileBusyAreIgnored :
    (facing (mid .check 1 40 true) [write 0 2]).phase ≠ .idle ∧
    (facing (mid .check 1 40 true) [write 0 2]).pending = write 0 2 :: [] ∧ (write 0 2).rst = false := by decide

/-- A run of two ticks; an edge at which the block leaves `IDLE`. -/
theorem witness_IdleTicksChangeNothing :
    ((facing afterP1 [tickOf true, tickOf false]).phase = .idle ∧
      (∀ e ∈ [tickOf true, tickOf false], e.rst = false ∧ e.sel = false) ∧
      (facing afterP1 [tickOf true, tickOf false]).pending = [tickOf true, tickOf false] ++ []) ∧
    ((facing State.reset [write 0 2]).phase = .idle ∧ (facing State.reset [write 0 2]).pending = write 0 2 :: [] ∧
      (write 0 2).rst = false ∧ gives (step (facing State.reset [write 0 2])) (fun t => t.phase != .idle) = true) := by
  decide

/-- The tick at the limit and one below; a run that ends at the limit, one that goes one past it. -/
theorem witness_WakePulseLastsItsLength :
    (mid .wake 1000 0 true).cnt.toNat = wakeTicks (mid .wake 1000 0 true).cfg (mid .wake 1000 0 true).model ∧
    (mid .wake 999 0 true).cnt.toNat ≠ wakeTicks (mid .wake 999 0 true).cfg (mid .wake 999 0 true).model ∧
    (let s := facing (mid .wake 999 0 true) [tickOf true, tickOf true]
     s.cfg.Ok ∧ s.phase = .wake ∧ s.cnt.toNat ≤ wakeTicks s.cfg s.model ∧ Ticking [tickOf true] ∧
      s.pending = [tickOf true] ++ [tickOf true] ∧ s.cnt.toNat + 1 = wakeTicks s.cfg s.model ∧
      Ticking [tickOf true, tickOf true] ∧ s.pending = [tickOf true, tickOf true] ++ [] ∧
      s.cnt.toNat + 2 = wakeTicks s.cfg s.model + 1) := by decide

/-- Each of the twelve clauses, the counting ones at one below the bound. -/
theorem witness_WaitPhasesCountTimeOutOrPass :
    ((mid .resp 100 0 true).port.lineIn = true ∧ (mid .resp 100 0 true).cnt.toNat = (mid .resp 100 0 true).cfg.tmoResp ∧
      (mid .resp 99 0 true).cnt.toNat ≠ (mid .resp 99 0 true).cfg.tmoResp ∧ (mid .resp 99 0 false).port.lineIn = false) ∧
    ((mid .ackl 100 0 false).port.lineIn = false ∧ (mid .ackl 100 0 false).cnt.toNat = (mid .ackl 100 0 false).cfg.tmoAckl ∧
      (mid .ackl 99 0 false).cnt.toNat ≠ (mid .ackl 99 0 false).cfg.tmoAckl ∧ (mid .ackl 99 0 true).port.lineIn = true) ∧
    ((mid .ackh 100 0 true).port.lineIn = true ∧ (mid .ackh 100 0 true).cnt.toNat = (mid .ackh 100 0 true).cfg.tmoAckh ∧
      (mid .ackh 99 0 true).cnt.toNat ≠ (mid .ackh 99 0 true).cfg.tmoAckh ∧ (mid .ackh 99 0 false).port.lineIn = false) ∧
    ((mid .bitl 100 0 false).port.lineIn = false ∧ (mid .bitl 100 0 false).cnt.toNat = (mid .bitl 100 0 false).cfg.tmoBitl ∧
      (mid .bitl 99 0 false).cnt.toNat ≠ (mid .bitl 99 0 false).cfg.tmoBitl ∧ (mid .bitl 99 0 true).port.lineIn = true) := by
  decide

/-- A run that fills the bound, one that exceeds it by one sample; the sample that ends a pulse; the end of `WAKE`. -/
theorem witness_PulsesPassUpToTheirBound :
    (let s := facing (mid .bith 99 3 true) [tickOf true, tickOf true]
     s.cfg.Ok ∧ waitsFor s.cfg s.phase = some (true, 100) ∧ s.cnt.toNat ≤ 100 ∧ Ticking [tickOf true, tickOf true] ∧
      (∀ e ∈ [tickOf true, tickOf true], e.lineIn = true) ∧ s.pending = [tickOf true] ++ [tickOf true] ∧
      s.cnt.toNat + 1 ≤ 100 ∧ s.pending = [tickOf true, tickOf true] ++ [] ∧ s.cnt.toNat + 2 = 100 + 1) ∧
    (let s := mid .bith 99 3 false
     waitsFor s.cfg s.phase = some (true, 100) ∧ s.port.tickEn = true ∧ s.port.lineIn ≠ true) ∧
    (mid .wake 1000 0 true).cnt.toNat = wakeTicks (mid .wake 1000 0 true).cfg (mid .wake 1000 0 true).model := by decide

/-- The states `mid` that have the invariant. -/
theorem mid_inv {p : Phase} {cnt : Ticks} {bitcnt : BitVec 6} {level : Bool}
    (hw : p = .wake → cnt.toNat ≤ 1000) (hb : p ≠ .wake → cnt.toNat ≤ 100 ∧ 1 ≤ cnt.toNat)
    (h0 : p = .wake ∨ p = .resp ∨ p = .ackl ∨ p = .ackh → bitcnt = 0)
    (h1 : p = .bitl ∨ p = .bith → bitcnt.toNat ≤ 39) (h2 : p = .check → bitcnt = 40) (h3 : bitcnt.toNat ≤ 40) :
    (mid p cnt bitcnt level).Inv where
  cfgOk := by show Cfg.default.Ok; decide
  bitcntLe := h3
  wakeCnt := hw
  waitCnt := by
    intro l b h
    cases p <;> simp [mid, State.reset, Cfg.default, waitsFor] at h <;> obtain ⟨-, rfl⟩ := h <;>
      exact ⟨(hb (by simp)).1, fun _ => (hb (by simp)).2⟩
  beforeBits := h0
  duringBits := h1
  afterBits := h2
  srBits := Nat.pow_pos (by decide)
  nothingCached := fun _ => ⟨rfl, rfl, rfl⟩
  cachedChecked := fun h => absurd h (by show ¬ false = true; decide)
  cachedConverted := fun h => absurd h (by show ¬ false = true; decide)

/-- The last bit and an earlier one; the bound and below it; the invariant in `BITH`. -/
theorem witness_BithShiftsTheDecodedBit :
    ((mid .bith 29 39 false).port.lineIn = false ∧ (mid .bith 29 39 false).bitcnt = 39 ∧ (mid .bith 28 38 false).bitcnt ≠ 39) ∧
    ((mid .bith 100 0 true).port.lineIn = true ∧ (mid .bith 100 0 true).cnt.toNat = (mid .bith 100 0 true).cfg.tmoBith ∧
      (mid .bith 99 0 true).cnt.toNat ≠ (mid .bith 99 0 true).cfg.tmoBith) ∧
    (mid .bith 1 39 true).Inv ∧ (mid .bith 1 39 true).phase = .bith :=
  ⟨by decide, by decide, mid_inv (by decide) (by decide) (by decide) (by decide) (by decide) (by decide), rfl⟩

/-- Every row of the table, the counting rows next to their limits. -/
theorem witness_SequencerFollowsItsTransitionTable :
    ((mid .idle 1 40 true).Inv ∧ (mid .idle 1 40 true).port.tickEn = true) ∧
    ((mid .wake 999 0 true).Inv ∧ (mid .wake 1000 0 true).Inv) ∧
    ((mid .resp 99 0 true).Inv ∧ (mid .resp 100 0 true).Inv ∧ (mid .resp 100 0 false).Inv) ∧
    ((mid .ackl 99 0 false).Inv ∧ (mid .ackl 100 0 false).Inv ∧ (mid .ackl 100 0 true).Inv) ∧
    ((mid .ackh 99 0 true).Inv ∧ (mid .ackh 100 0 true).Inv ∧ (mid .ackh 100 0 false).Inv) ∧
    ((mid .bitl 99 39 false).Inv ∧ (mid .bitl 100 39 false).Inv ∧ (mid .bitl 100 39 true).Inv) ∧
    ((mid .bith 99 39 true).Inv ∧ (mid .bith 100 39 true).Inv ∧ (mid .bith 100 38 false).Inv ∧
      (mid .bith 100 39 false).Inv) ∧
    (mid .check 1 40 true).Inv ∧
    (let e := write 0 2
     (facing State.reset [e]).pending = e :: [] ∧ e.rst = false ∧ e.tickEn = false ∧ State.reset.phase = .idle ∧
      Commands e .read ∧ gateOpen (present e [] (facing State.reset [e])) = true) ∧
    (let e := write 0 0x21
     (facing State.reset [e]).pending = e :: [] ∧ e.rst = false ∧ e.tickEn = false ∧ ¬ Commands e .read) := by
  refine ⟨⟨?_, rfl⟩, ⟨?_, ?_⟩, ⟨?_, ?_, ?_⟩, ⟨?_, ?_, ?_⟩, ⟨?_, ?_, ?_⟩, ⟨?_, ?_, ?_⟩, ⟨?_, ?_, ?_, ?_⟩, ?_, by decide, by decide⟩ <;>
    exact mid_inv (by decide) (by decide) (by decide) (by decide) (by decide) (by decide)

/-- Steps at which `crit` rises, falls at the last bit, and falls at a timeout. -/
theorem witness_CriticalWindowCoversTheSampling :
    (mid .wake 1000 0 true).cfg.Ok ∧ (tickOf true).rst = false ∧
    (crit (mid .wake 1000 0 true) = false ∧ gives (step (facing (mid .wake 1000 0 true) [tickOf true])) crit = true) ∧
    (crit (mid .bith 26 39 true) = true ∧
      gives (step (facing (mid .bith 26 39 true) [tickOf false])) (fun t => !crit t) = true) ∧
    (crit (mid .bith 100 3 true) = true ∧
      gives (step (facing (mid .bith 100 3 true) [tickOf true])) (fun t => !crit t) = true) := by decide

/-- A line stuck high for the whole of the bound, after a `READ` whose edge has no tick and after one whose edge has. -/
theorem witness_TransactionEndsWithinItsBound : ∀ q : Ticks × Nat, q = (0, 9303) ∨ q = (1, 9302) →
    let es := List.replicate q.2 (tickOf true)
    let s := facing (mid .wake q.1 0 true) es
    s.cfg.Ok ∧ s.phase = .wake ∧ s.cnt.toNat ≤ wakeTicks s.cfg s.model ∧ s.bitcnt = 0 ∧ Ticking es ∧
      s.cnt.toNat + es.length = longestTransaction s.cfg s.model ∧ s.pending = es ++ [] := by
  intro q hq
  have bounds : q.1.toNat ≤ wakeTicks Cfg.default .dht22Family ∧
      q.1.toNat + q.2 = longestTransaction Cfg.default .dht22Family := by rcases hq with rfl | rfl <;> decide
  refine ⟨by show Cfg.default.Ok; decide, rfl, bounds.1, rfl, ?_, ?_, (List.append_nil _).symm⟩
  · intro e he
    rw [(List.mem_replicate.1 he).2]
    exact ⟨rfl, rfl⟩
  · rw [List.length_replicate]
    exact bounds.2

/-- The shortest waveform (every pulse of one tick and no released-high time) after a `READ` whose edge has no tick, and
the longest (every pulse at its bound) after one whose edge has. -/
theorem witness_GoodPulsesGiveTheirFrame : ∀ (q : Nat × Nat) (w : Ticks × Nat),
    (q = (0, 1) ∧ w = (0, 1001)) ∨ (q = (100, 100) ∧ w = (1, 1000)) →
    let wakeEs := List.replicate w.2 (tickOf false)
    let bits := List.replicate 40 (q.2, q.2)
    let es := (frameSamples q.1 q.2 q.2 bits).map tickOf
    let s := facing (mid .wake w.1 0 true) (wakeEs ++ es ++ tickOf true :: [])
    s.cfg.Ok ∧ s.phase = .wake ∧ s.cnt.toNat ≤ wakeTicks s.cfg s.model ∧ s.bitcnt = 0 ∧ s.sr = 0 ∧ Ticking wakeEs ∧
      s.cnt.toNat + wakeEs.length = wakeTicks s.cfg s.model + 1 ∧ Ticking es ∧ es.map (·.lineIn) = frameSamples q.1 q.2 q.2 bits ∧
      Ticking [tickOf true] ∧ q.1 ≤ s.cfg.tmoResp ∧ 1 ≤ q.2 ∧ q.2 ≤ s.cfg.tmoAckl ∧ q.2 ≤ s.cfg.tmoAckh ∧
      bits.length = 40 ∧ (∀ p ∈ bits, 1 ≤ p.1 ∧ p.1 ≤ s.cfg.tmoBitl ∧ 1 ≤ p.2 ∧ p.2 ≤ s.cfg.tmoBith) ∧
      s.pending = wakeEs ++ es ++ tickOf true :: [] := by
  intro q w hq
  have ticks : ∀ ls : List Bool, Ticking (ls.map tickOf) := by
    intro ls e he
    obtain ⟨l, -, rfl⟩ := List.mem_map.1 he
    exact ⟨rfl, rfl⟩
  have lines : ∀ ls : List Bool, (ls.map tickOf).map (·.lineIn) = ls := by
    intro ls
    rw [List.map_map]
    exact List.map_id _
  have bounds : q.1 ≤ 100 ∧ 1 ≤ q.2 ∧ q.2 ≤ 100 := by rcases hq with ⟨rfl, rfl⟩ | ⟨rfl, rfl⟩ <;> decide
  have wakes : w.1.toNat ≤ wakeTicks Cfg.default .dht22Family ∧
      w.1.toNat + w.2 = wakeTicks Cfg.default .dht22Family + 1 := by
    rcases hq with ⟨rfl, rfl⟩ | ⟨rfl, rfl⟩ <;> decide
  refine ⟨by show Cfg.default.Ok; decide, rfl, wakes.1, rfl, rfl, ?_, ?_, ticks _, lines _, by decide, bounds.1,
    bounds.2.1, bounds.2.2, bounds.2.2, List.length_replicate, ?_, rfl⟩
  · intro e he
    rw [(List.mem_replicate.1 he).2]
    exact ⟨rfl, rfl⟩
  · rw [List.length_replicate]
    exact wakes.2
  · intro p hp
    rw [(List.mem_replicate.1 hp).2]
    exact ⟨bounds.2.1, bounds.2.2, bounds.2.1, bounds.2.2⟩

/-- The first and the last bit of each byte (F4's bits). -/
theorem witness_BitsArriveMostSignificantFirst :
    let bs := [false, false, false, false, false, false, true, false, true, false, false, false, true, true, false, false,
      false, false, false, false, false, false, false, true, false, false, false, true, false, false, false, true] ++
      [true, false, true, false, false, false, false, false]
    bs.length = 40 ∧ bs[6]? = some true ∧ bs[8]? = some true ∧ bs[23]? = some true ∧ bs[31]? = some true ∧
      bs[32]? = some true ∧ bs[39]? = some false ∧
      (6 < 8 ∧ 8 = 8 + 0 ∧ 23 = 16 + 7 ∧ 31 = 24 + 7 ∧ 32 = 32 + 0 ∧ 39 = 32 + 7) :=
  ⟨rfl, rfl, rfl, rfl, rfl, rfl, rfl, by decide⟩

theorem witness_ChecksumComparesTheLowEightBits : 0 < 40 ∧ 39 < 40 ∧ checksumOk 0x028C0111A0 = true := by decide

/-- The last positive and the first negative byte 2. -/
theorem witness_Dht22ScalingIsSignAndMagnitude :
    (byte2 0xFFFF7FFF7C).toNat < 128 ∧ 128 ≤ (byte2 0x0000800080).toNat := by decide

/-- The last positive and the first negative byte 3, and both values of the parameter. -/
theorem witness_Dht11ScalingAddsTenths :
    (byte3 0x2800057FAC).toNat < 128 ∧ 128 ≤ (byte3 0x28000580AD).toNat ∧ Cfg.default.dht11Tenths = true ∧
    ({ Cfg.default with dht11Tenths := false } : Cfg).dht11Tenths = false := by decide

/-- A bad checksum; the four commits; a failed auto-detect; an edge that is no `CHECK` tick. -/
theorem witness_CheckCommitsOrRaises :
    checksumOk (checking .dht11 0x028C0110A0).sr = false ∧
    (checksumOk (checking .dht11 0x190015002E).sr = true ∧ (checking .dht11 0x190015002E).model = .dht11 ∧
      (checking .dht22Family 0x190015002E).model = .dht22Family) ∧
    ((checking .autoDetect 0x028C0111A0).model = .autoDetect ∧ checksumOk 0x028C0111A0 = true ∧
      plausible22 Cfg.default (conv22 0x028C0111A0) = true) ∧
    (plausible22 Cfg.default (conv22 0x190015002E) = false ∧
      plausible11 Cfg.default (conv11 Cfg.default 0x190015002E) = true) ∧
    (checksumOk 0xFFFF7FFF7C = true ∧ plausible22 Cfg.default (conv22 0xFFFF7FFF7C) = false ∧
      plausible11 Cfg.default (conv11 Cfg.default 0xFFFF7FFF7C) = false) ∧
    ((checking .dht11 0x190015002E).phase = .check ∧ (facing (checking .dht11 0x190015002E) [read 4]).pending = read 4 :: [] ∧
      (read 4).rst = false ∧ ¬ ((checking .dht11 0x190015002E).phase = .check ∧ (read 4).tickEn = true)) :=
  ⟨by decide, ⟨by decide, rfl, rfl⟩, ⟨rfl, by decide, by decide⟩, ⟨by decide, by decide⟩,
    ⟨by decide, by decide, by decide⟩, by decide⟩

/-- A read of `STATUS` at the edge of a tick, by the first and the last byte address of the word. -/
theorem witness_StatusWordHoldsItsFields :
    (let e := { read 4 with tickEn := true }
     (facing afterP1 [e]).pending = e :: [] ∧ e.rst = false ∧ e.sel = true ∧ e.wr = false ∧ e.addr.toNat / 4 = 1) ∧
    (read 7).addr.toNat / 4 = 1 := by decide

theorem witness_FixedModelsCommitEveryValidFrame :
    (checksumOk (checking .dht22Family 0xFFFF7FFF7C).sr = true ∧ (checking .dht22Family 0xFFFF7FFF7C).model = .dht22Family) ∧
    (checksumOk (checking .dht11 0xFFFF7FFF7C).sr = true ∧ (checking .dht11 0xFFFF7FFF7C).model = .dht11) := by decide

/-- V7 and V10 (bounds met exactly), V14 (the DHT11 bounds exactly), V9 (neither). -/
theorem witness_AutoDetectTriesDht22First :
    (checksumOk 0x03E804E2D1 = true ∧ checksumOk 0x0000819011 = true ∧ checksumOk 0x6400320096 = true ∧
      checksumOk 0x03E804E3D2 = true) ∧
    (∀ f, (checking .autoDetect f).sr = f ∧ (checking .autoDetect f).model = .autoDetect) ∧
    (plausible22 Cfg.default (conv22 0x03E804E2D1) = true ∧ plausible22 Cfg.default (conv22 0x0000819011) = true) ∧
    (plausible22 Cfg.default (conv22 0x6400320096) = false ∧
      plausible11 Cfg.default (conv11 Cfg.default 0x6400320096) = true) ∧
    (plausible22 Cfg.default (conv22 0x03E804E3D2) = false ∧
      plausible11 Cfg.default (conv11 Cfg.default 0x03E804E3D2) = false) :=
  ⟨by decide, fun _ => ⟨rfl, rfl⟩, ⟨by decide, by decide⟩, ⟨by decide, by decide⟩, ⟨by decide, by decide⟩⟩

/-- A timeout, the two causes of `ChecksumError`, a commit. -/
theorem witness_TransactionsEndWithTheirCode :
    (let s := mid .ackl 100 0 false
     s.phase ≠ .idle ∧ s.port.tickEn = true ∧ waitsFor s.cfg s.phase = some (s.port.lineIn, 100) ∧ s.cnt.toNat = 100) ∧
    (let s := checking .dht22Family 0x028C0110A0
     s.phase = .check ∧ s.port.tickEn = true ∧ checksumOk s.sr = false) ∧
    (let s := checking .autoDetect 0xFFFF7FFF7C
     s.phase = .check ∧ s.port.tickEn = true ∧ checksumOk s.sr = true ∧ s.model = .autoDetect ∧
      plausible22 s.cfg (conv22 s.sr) = false ∧ plausible11 s.cfg (conv11 s.cfg s.sr) = false) ∧
    (let s := checking .dht22Family 0x028C0111A0
     s.phase = .check ∧ s.port.tickEn = true ∧ gives (tick s) (fun t => t.phase == .idle && t.rstat == .none) = true) := by
  decide

/-- E1's last tick, then a `STATUS` read, a reserved `SETUP` and a passthrough in `IDLE`; then a `READ` with a tick one
millisecond before the period ends, or one at its end without a tick. -/
theorem witness_FailedTransactionsStillRateLimit :
    ∀ e : Edge, e = { write 0 2 with nowMs := 8999, tickEn := true } ∨ e = { write 0 2 with nowMs := 9000 } →
    let es := [tickOf true, read 4, write 0 0x31, { write 0 2 with nowMs := 7500 }]
    let s := facing { mid .resp 100 0 true with lastMs := 7000 } (es ++ [e])
    s.armed = false ∧ (∀ d ∈ es, d.rst = false) ∧ s.pending = es ++ e :: [] ∧
      (∀ (k : Nat) (d : Edge) (u : State), es[k]? = some d → runEdges k s = .next u → u.phase = .idle →
        (∀ m : SensorModel, ¬ Commands d (.setup (modelCode m))) ∧
        (Commands d .read → gateOpen { u with port := d } = false)) ∧
      Commands e .read ∧
      ∃ t, runEdges es.length s = .next t ∧ t.phase = .idle ∧ t.rstat = .timeout ∧
        (e.nowMs = 8999 → (e.nowMs - s.lastMs).toNat < minPeriod t.cfg t.model) ∧
        (e.nowMs = 9000 → minPeriod t.cfg t.model ≤ (e.nowMs - s.lastMs).toNat) := by
  rintro e (rfl | rfl) <;>
    refine ⟨rfl, by decide, rfl, ?_, by decide, _, rfl, rfl, rfl, by decide, by decide⟩
  all_goals
    intro k d u hd hu hi
    match k, hd, hu with
    | 0, hd, hu => cases hd; cases hu; exact absurd hi (by decide)
    | 1, hd, hu => cases hd; exact ⟨by rintro (_ | _ | _) <;> decide, fun h => absurd h (by decide)⟩
    | 2, hd, hu => cases hd; exact ⟨by rintro (_ | _ | _) <;> decide, fun h => absurd h (by decide)⟩
    | 3, hd, hu => cases hd; cases hu; exact ⟨by rintro (_ | _ | _) <;> decide, fun _ => by decide⟩
    | k + 4, hd, hu => simp at hd

/-- A commit changes the cached `Reading`. -/
theorem witness_OnlyCheckedFramesAreCached :
    (facing (checking .dht11 0x190015002E) [tickOf true]).pending = tickOf true :: [] ∧ (tickOf true).rst = false ∧
    gives (step (facing (checking .dht11 0x190015002E) [tickOf true])) (fun t =>
      t.frame != 0 && t.hum != 0 && t.temp != 0 && t.valid) = true := by decide

/-- Edges that change each of the thirteen elements: an accepted `READ`, a `SETUP`, a passthrough, an auto-detect that
commits, a timeout, the end of a bit, a count. -/
theorem witness_EachElementIsWrittenOnlyByItsRules :
    gives (step (facing { State.reset with skip := true, sr := 1, bitcnt := 40, cnt := 1 }
        [{ write 0 2 with nowMs := 5 }])) (fun t =>
      t.lastMs == 5 && !t.skip && !t.armed && t.sr == 0 && t.bitcnt == 0 && t.cnt == 0 && t.phase == .wake) = true ∧
    gives (step (facing (idle .dht11 0) [write 0 0x21])) (fun t => t.model == .dht22Family && t.armed) = true ∧
    gives (step (facing (idle .dht11 0) [write 0 2])) (fun t => t.skip) = true ∧
    gives (step (facing { checking .autoDetect 0x028C0111A0 with rstat := .timeout } [tickOf true])) (fun t =>
      t.model == .dht22Family && t.rstat == .none && t.phase == .idle && t.frame == 0x028C0111A0 && t.hum == 652 &&
      t.temp == 273 && t.valid) = true ∧
    gives (step (facing (mid .resp 100 0 true) [tickOf true])) (fun t => t.rstat == .timeout && t.phase == .idle) = true ∧
    gives (step (facing (mid .bith 29 3 true) [tickOf false])) (fun t =>
      t.sr == 1 && t.bitcnt == 4 && t.cnt == 1 && t.phase == .bitl) = true ∧
    gives (step (facing (mid .wake 3 0 true) [tickOf true])) (fun t => t.cnt == 4) = true := by decide

/-- A locked model, a `READ` and a tick. -/
theorem witness_LockedModelStays :
    (facing (idle .dht11 0) [write 0 2, tickOf true]).model ≠ .autoDetect ∧
    (∀ e ∈ [write 0 2, tickOf true], e.rst = false ∧ ∀ m, ¬ Commands e (.setup m)) ∧
    (facing (idle .dht11 0) [write 0 2, tickOf true]).pending = [write 0 2, tickOf true] ++ [] := by decide

theorem witness_WithoutTicksABusyBlockWaits :
    (facing (mid .wake 7 0 true) [read 4, write 0 2]).phase ≠ .idle ∧
    (∀ e ∈ [read 4, write 0 2], e.rst = false ∧ e.tickEn = false) ∧
    (facing (mid .wake 7 0 true) [read 4, write 0 2]).pending = [read 4, write 0 2] ++ [] := by decide

theorem witness_EveryEdgeKeepsTheInvariant :
    (mid .bith 100 39 true).Inv ∧ (mid .bith 100 39 true).phase ≠ .idle ∧ (mid .bith 100 39 true).phase ≠ .check ∧
    (∀ e ∈ (mid .bith 100 39 true).pending.head?, e.rst = false) :=
  ⟨mid_inv (by decide) (by decide) (by decide) (by decide) (by decide) (by decide), by decide, by decide, by decide⟩

/-- Two idle states with different leftovers, and one edge after which the block is busy. -/
theorem witness_LeftoverRegistersAreNeverSeen :
    (facing State.reset [write 0 2]).phase = .idle ∧
    gives (runEdges 1 { facing State.reset [write 0 2] with sr := 0x1234, cnt := 9 }) (fun t => t.phase != .idle) = true := by
  decide

end Sys2Proof.Tests
end

/-! ### 10_state.md: reset, the order of an edge, the `STATUS` word, the outputs -/

namespace Sys2Proof.Machine

/-! ### Reset -/

/-- The state after reset is itself the state a reset edge leaves. -/
theorem applyReset_reset : applyReset State.reset = State.reset := rfl

/-- An edge of reset gives the values of 10_state.md R46 from any state. -/
theorem applyReset_hasResetValues (s : State) : HasResetValues (applyReset s) :=
  ⟨by simp, rfl, rfl, rfl, rfl, (show statusWord State.reset = 0x00000040 by decide)⟩

/-- Settles O1: a reset edge is `applyReset`, which gives the listed values from any state, and the reset state is one
that `applyReset` leaves. -/
theorem resetEdgeGivesTheResetValues : Obligations.ResetEdgeGivesTheResetValues := by
  refine ⟨applyReset_reset ▸ applyReset_hasResetValues State.reset, fun s e later h hr => ?_⟩
  exact ⟨_, step_reset h hr, applyReset_hasResetValues _, applyReset_rdata _⟩

/-! ### The order of an edge (10_state.md R45) -/

/-- Under reset the bus does not write. -/
theorem isWrite_of_rst {e : Edge} (hr : e.rst = true) : isWrite e = false := by simp [isWrite, hr]

/-- A command comes at an edge without reset. -/
theorem Commands.rst_eq_false {e : Edge} {i : Instr} (h : Commands e i) : e.rst = false := by
  obtain ⟨hw, -⟩ := h
  cases hr : e.rst with
  | false => rfl
  | true => simp [isWrite_of_rst hr] at hw

/-- A command executes on the state before its edge, the tick on what the command left. -/
theorem step_command {s : State} {e : Edge} {later : List Edge} {i : Instr} (h : s.pending = e :: later)
    (hc : Commands e i) : step s = andThen (exec i (present e later s)) tick := by
  rw [step_run h (Commands.rst_eq_false hc), busAccess_command (by simpa using hc)]

/-- An edge without reset leaves in `rdata` its answer from the state before it: neither the bus access nor the tick
of the edge changes it. -/
theorem step_rdata {s : State} {e : Edge} {later : List Edge} (h : s.pending = e :: later) (hr : e.rst = false) :
    ∃ t, step s = .next t ∧ t.rdata = rdataAt e s := by
  obtain ⟨u, hu, -, -, -, -, -, -, -, -, hur, -⟩ := busAccess_frame (present e later s) (by simpa using hr)
  obtain ⟨t, ht, -, -, -, -, -, -, htr, -⟩ := tick_frame u
  exact ⟨t, by rw [step_run h hr, hu, andThen_next, ht], by rw [htr, hur, present_rdata]⟩

/-- A read answers with its word of the window before the edge (20_memory.md R52). -/
theorem step_read_rdata {s : State} {e : Edge} {later : List Edge} (h : s.pending = e :: later) (hr : e.rst = false)
    (hs : e.sel = true) (hw : e.wr = false) : ∃ t, step s = .next t ∧ t.rdata = readWindow s e.addr := by
  obtain ⟨t, ht, hd⟩ := step_rdata h hr
  exact ⟨t, ht, by simpa [rdataAt, hr, hs, hw] using hd⟩

/-- The first tick of a wake pulse counts, whatever the model: no wake length is 0. -/
theorem tick_wake_first {s : State} (hc : s.cfg.Ok) (ht : s.port.tickEn = true) (hp : s.phase = .wake)
    (h0 : s.cnt = 0) : tick s = .next (countTick s) := by
  have hw : s.cnt.toNat ≠ wakeTicks s.cfg s.model := by
    have := wakeTicks_bounds hc s.model
    simp [h0]
    omega
  rw [tick_wake ht hp, if_neg hw]

/-- Settles O3: reset discards the inputs, `rdata` is answered before the tick, and the tick after an accepted `READ`
is the first of its wake pulse. -/
theorem edgeEventsHappenInOrder : Obligations.EdgeEventsHappenInOrder := by
  refine ⟨fun s e e' later hr hr' => ?reset, fun s e later h hr hs hw => step_read_rdata h hr hs hw,
    fun s e later i h hc => step_command h hc, fun s e later h hok hp hc ht hg => ?read⟩
  case reset =>
    refine ⟨_, step_reset rfl hr, ?_⟩
    rw [step_reset rfl hr']
    simp [applyReset, present, isWrite_of_rst hr, isWrite_of_rst hr']
  case read =>
    have hgate : gateOpen (present e later s) = true := (gateOpen_eq_true _).2 (by simpa using hg)
    refine ⟨countTick (acceptRead (present e later s)), ?_, by simp⟩
    rw [step_command h hc, exec_read_idle (by simpa using hp), if_pos hgate, andThen_next]
    exact tick_wake_first (by simpa using hok) (by simpa using ht) rfl rfl

/-! ### The `STATUS` word (10_state.md R33) -/

/-- A code shifted up by `k` starts at bit `k`. -/
theorem code_shift_getLsbD {w : Nat} (x : BitVec w) (k : Nat) {n : Nat} (hn : n < 32) :
    (x.setWidth 32 <<< k).getLsbD n = (decide (k ≤ n) && x.getLsbD (n - k)) := by
  rcases Nat.lt_or_ge n k with h | h
  · simp [h, Nat.not_le.2 h]
  · simp [h, hn, Nat.not_lt.2 h]

/-- A flag shifted up by `k` is bit `k`. -/
theorem flagWord_shift_getLsbD (b : Bool) (k : Nat) {n : Nat} (hn : n < 32) :
    (flagWord b <<< k).getLsbD n = (decide (n = k) && b) := by
  have hk : n = k ↔ k ≤ n ∧ n - k = 0 := by omega
  rw [flagWord, code_shift_getLsbD _ _ hn, BitVec.getLsbD_ofBool]
  simp [hk, Bool.and_assoc]

/-- `STATUS` bit by bit: each field at its place; its own width bounds it above. -/
theorem statusWord_getLsbD (s : State) {n : Nat} (hn : n < 32) : (statusWord s).getLsbD n =
    ((statusCode s.rstat).getLsbD n || (decide (n = 2) && busy s) || (decide (n = 3) && s.skip) ||
      (decide (4 ≤ n) && (modelCode s.model).getLsbD (n - 4)) || (decide (n = 6) && s.armed) ||
      (decide (n = 7) && s.valid) || (decide (8 ≤ n) && (phaseCode s.phase).getLsbD (n - 8)) ||
      (decide (11 ≤ n) && s.bitcnt.getLsbD (n - 11))) := by
  simp only [statusWord, BitVec.getLsbD_or, flagWord_shift_getLsbD _ _ hn, code_shift_getLsbD _ _ hn]
  simp [hn]

/-- Word 1 of the window is `STATUS` (20_memory.md R52). -/
theorem readWindow_status (s : State) {a : BitVec 5} (ha : a.toNat / 4 = 1) : readWindow s a = statusWord s := by
  have hw : wordSelect a = 1 := BitVec.eq_of_toNat_eq (by rw [wordSelect_toNat, ha]; rfl)
  simp [readWindow, hw]

/-- Settles O6: the fields lie side by side in the word, and a read answers from the state before the edge. -/
theorem statusWordHoldsItsFields : Obligations.StatusWordHoldsItsFields := by
  refine ⟨fun s => ⟨?rstat, ?busy, ?skip, ?model, ?armed, ?valid, ?phase, ?bitcnt, ?reserved⟩,
    fun s e later h hr hs hw ha => readWindow_status s ha ▸ step_read_rdata h hr hs hw⟩
  case busy | skip | armed | valid =>
    rw [statusWord_getLsbD s (by decide)]
    simp
  case rstat | model | phase | bitcnt | reserved =>
    refine BitVec.eq_of_getLsbD_eq fun i hi => ?_
    rw [BitVec.getLsbD_extractLsb', statusWord_getLsbD s (by omega)]
    interval_cases i <;> simp

/-! ### The outputs and the critical window (10_state.md R44, 41_sampler.md R120) -/

theorem lineOe_eq_true (s : State) : lineOe s = true ↔ s.phase = .wake := by simp [lineOe]

theorem linePu_eq_true (s : State) : linePu s = true ↔ s.phase ≠ .wake := by simp [linePu]

theorem busy_eq_true (s : State) : busy s = true ↔ s.phase ≠ .idle := by simp [busy]

theorem crit_eq_true (s : State) : crit s = true ↔
    s.phase = .resp ∨ s.phase = .ackl ∨ s.phase = .ackh ∨ s.phase = .bitl ∨ s.phase = .bith := by
  cases h : s.phase <;> simp [crit, sampling, h]

/-- The value of `crit` in a known phase. -/
theorem crit_of_phase {s : State} {p : Phase} (h : s.phase = p) : crit s = sampling p := by rw [crit, h]

/-- The phases that wait for a level are those that sample the line. -/
theorem sampling_of_waitsFor {c : Cfg} {p : Phase} {l : Bool} {b : Nat} (h : waitsFor c p = some (l, b)) :
    sampling p = true := by
  cases p <;> simp [waitsFor] at h <;> rfl

/-- The phase after a wait samples the line too. -/
theorem sampling_of_afterWait {p q : Phase} (h : afterWait p = some q) : sampling q = true := by
  cases p <;> simp [afterWait] at h <;> cases h <;> rfl

/-- `CHECK` leaves the block in `IDLE`, with a result or with `ChecksumError` (43_check_convert.md R140). -/
theorem exec_check_phase (s : State) : ∃ t, exec .check s = .next t ∧ t.phase = .idle := by
  rcases exec_check_cases s with ⟨-, h⟩ | ⟨-, -, h⟩ | ⟨-, -, h⟩ <;> exact ⟨_, h, rfl⟩

/-- `crit` over one tick or edge from `s` to `t`: it rises only with the release of the line and falls only where
sampling ends (41_sampler.md R120). -/
def CritKeepsItsWindow (s t : State) : Prop :=
  (crit s = false → crit t = true → s.phase = .wake ∧ t.phase = .resp) ∧
  (crit s = true → crit t = false → t.phase = .check ∨ (t.phase = .idle ∧ t.rstat = .timeout))

/-- Where `crit` stays as it was there is nothing to show. -/
theorem CritKeepsItsWindow.of_crit_eq {s t : State} (h : crit t = crit s) : CritKeepsItsWindow s t := by
  constructor <;> intro hs ht <;> simp [h, hs] at ht

/-- Every tick keeps the window. -/
theorem tick_critKeepsItsWindow (s : State) : ∃ t, tick s = .next t ∧ CritKeepsItsWindow s t := by
  rcases tick_cases s with ⟨-, h⟩ | ⟨-, hp, -, h⟩ | ⟨-, -, -, h⟩ | ⟨-, l, b, -, -, -, h⟩ | ⟨-, l, b, -, -, -, h⟩ |
    ⟨-, l, b, p, hw, hn, -, h⟩ | ⟨-, hp, -, h⟩ | ⟨-, hp, h⟩
  · exact ⟨_, h, .of_crit_eq rfl⟩
  · exact ⟨_, h, fun _ _ => ⟨hp, rfl⟩, fun hs => by simp [crit_of_phase hp, sampling] at hs⟩
  · exact ⟨_, h, .of_crit_eq rfl⟩
  · exact ⟨_, h, fun _ ht => by simp [crit, sampling] at ht, fun _ _ => .inr ⟨rfl, rfl⟩⟩
  · exact ⟨_, h, .of_crit_eq rfl⟩
  · exact ⟨_, h, .of_crit_eq ((sampling_of_afterWait hn).trans (sampling_of_waitsFor hw).symm)⟩
  · by_cases hb : s.bitcnt = 39
    · exact ⟨_, h, fun hs => by simp [crit_of_phase hp, sampling] at hs, fun _ _ => .inl (if_pos hb)⟩
    · exact ⟨_, h, .of_crit_eq ((crit_of_phase (p := .bitl) (if_neg hb)).trans (crit_of_phase hp).symm)⟩
  · obtain ⟨t, ht, hi⟩ := exec_check_phase s
    exact ⟨t, h.trans ht, .of_crit_eq ((crit_of_phase hi).trans (crit_of_phase hp).symm)⟩

/-- No edge out of `IDLE` reaches a sampling phase: an accepted `READ` leaves the block in `WAKE`, and a tick at the
same edge only counts. -/
theorem step_idle_crit {s : State} {e : Edge} {later : List Edge} (hok : s.cfg.Ok) (h : s.pending = e :: later)
    (hr : e.rst = false) (hp : s.phase = .idle) : ∃ t, step s = .next t ∧ crit t = false := by
  rw [step_run h hr]
  rcases busAccess_cases (present e later s) (by simpa using hr) with hb | ⟨-, k, -, hb⟩ | ⟨-, -, -, hb⟩ | ⟨-, -, -, hb⟩
  case inr.inr.inl =>
    rw [hb, andThen_next]
    cases ht : e.tickEn with
    | false => exact ⟨_, tick_none (by simpa using ht), rfl⟩
    | true => exact ⟨_, tick_wake_first (by simpa using hok) (by simpa using ht) rfl rfl, rfl⟩
  all_goals
    rw [hb, andThen_next]
    exact ⟨_, tick_idle (by simpa using hp), crit_of_phase (by simpa using hp)⟩

/-- Every edge without reset keeps the window. -/
theorem step_critKeepsItsWindow {s : State} {e : Edge} {later : List Edge} (hok : s.cfg.Ok)
    (h : s.pending = e :: later) (hr : e.rst = false) : ∃ t, step s = .next t ∧ CritKeepsItsWindow s t := by
  by_cases hp : s.phase = .idle
  · obtain ⟨t, ht, hc⟩ := step_idle_crit hok h hr hp
    exact ⟨t, ht, .of_crit_eq (hc.trans (crit_of_phase hp).symm)⟩
  · rw [step_busy h hr hp]
    exact tick_critKeepsItsWindow (present e later s)

/-- Settles O21: the outputs are read off `PHASE`, and every edge without reset keeps the critical window. -/
theorem criticalWindowCoversTheSampling : Obligations.CriticalWindowCoversTheSampling := by
  refine ⟨fun s => ⟨lineOe_eq_true s, linePu_eq_true s, crit_eq_true s, busy_eq_true s⟩, fun s e later hok h hr => ?_⟩
  obtain ⟨t, ht, hrise, hfall⟩ := step_critKeepsItsWindow hok h hr
  refine ⟨t, ht, fun hs hc => ?_, hfall⟩
  obtain ⟨hw, hresp⟩ := hrise hs hc
  exact ⟨by simp [lineOe, hw], by simp [lineOe, hresp], hresp⟩

end Sys2Proof.Machine

/-! ### 20_memory.md: the register window, writes to `CMD`, the order of bits -/

namespace Sys2Proof.Machine

/-! ### The register window (20_memory.md R50, R52) -/

/-- The selected word, as a number. -/
theorem wordSelect_eq_iff (a : BitVec 5) (k : BitVec 3) : wordSelect a = k ↔ a.toNat / 4 = k.toNat := by
  rw [← BitVec.toNat_inj, wordSelect_toNat]

/-- The table of R52 by byte address. -/
theorem readWindow_eq (s : State) (a : BitVec 5) : readWindow s a =
    if a.toNat / 4 = 1 then statusWord s
    else if a.toNat / 4 = 2 then s.frame.extractLsb' 0 32
    else if a.toNat / 4 = 3 then (s.frame.extractLsb' 32 8).setWidth 32
    else if a.toNat / 4 = 4 then s.hum.setWidth 32
    else if a.toNat / 4 = 5 then s.temp.signExtend 32
    else if a.toNat / 4 = 6 then s.lastMs
    else 0 := by
  simp [readWindow, wordSelect_eq_iff]

/-- `FRAME[39:32]` zero-extended is the frame without its low 32 bits. -/
theorem frameHi_toNat (f : Frame) : ((f.extractLsb' 32 8).setWidth 32).toNat = f.toNat / 2 ^ 32 := by
  have := f.isLt
  rw [BitVec.toNat_setWidth, BitVec.extractLsb'_toNat, Nat.shiftRight_eq_div_pow]
  omega

/-- At an edge without a write only the ports, the edges to come and `rdata` move. -/
theorem present_of_not_isWrite {e : Edge} (h : isWrite e = false) (later : List Edge) (s : State) :
    present e later s = { s with port := e, pending := later, rdata := rdataAt e s } := by
  simp [present, h]

/-- An edge whose bus access does nothing does what its tick does. -/
theorem step_eq_tick {s : State} {e : Edge} {later : List Edge} (h : s.pending = e :: later) (hr : e.rst = false)
    (hb : busAccess (present e later s) = .next (present e later s)) : step s = tick (present e later s) := by
  rw [step_run h hr, hb, andThen_next]

/-- An edge without a write does what its tick does. -/
theorem step_of_not_isWrite {s : State} {e : Edge} {later : List Edge} (h : s.pending = e :: later)
    (hr : e.rst = false) (hw : isWrite e = false) :
    step s = tick { s with port := e, pending := later, rdata := rdataAt e s } := by
  have hb : busAccess (present e later s) = .next (present e later s) := by
    cases hs : e.sel with
    | false => exact busAccess_noAccess (by simpa using hs)
    | true => exact busAccess_read (by simpa [isWrite, hr, hs] using hw)
  rw [step_eq_tick h hr hb, present_of_not_isWrite hw]

/-- Settles O4: an edge without a write is its tick with the answer in `rdata`, and the answer to a read is the table
of R52. -/
theorem registerReadsReturnTheirWord : Obligations.RegisterReadsReturnTheirWord := by
  refine ⟨fun s e later h hr hs hw => ?read, fun s e later h hr hs => ?noAccess⟩
  case read =>
    have hstep : step s = tick { s with port := e, pending := later, rdata := readWindow s e.addr } := by
      simpa [rdataAt, hr, hs, hw] using step_of_not_isWrite h hr (by simp [isWrite, hw])
    refine ⟨_, hstep, step_read_rdata h hr hs hw, ?w0, ?w1, ?w2, ?w3, ?w4, ?w5, ?w6, ?w7⟩ <;>
      intro ha <;> simp only [readWindow_eq, ha]
    case w0 | w1 | w6 | w7 => rfl
    case w2 => simp
    case w3 => exact frameHi_toNat s.frame
    case w4 => exact BitVec.toNat_setWidth_of_le (show 16 ≤ 32 by decide)
    case w5 => exact BitVec.toInt_signExtend_of_le (by decide)
  case noAccess =>
    have hd : rdataAt e s = 0 := by simp [rdataAt, hr, hs]
    have hstep := step_of_not_isWrite h hr (by simp [isWrite, hs])
    obtain ⟨t, ht, hrd⟩ := step_rdata h hr
    exact ⟨hd ▸ hstep, t, ht, hrd.trans hd⟩

/-! ### Writes (20_memory.md R53) -/

theorem isWrite_iff {e : Edge} : isWrite e = true ↔ e.rst = false ∧ e.sel = true ∧ e.wr = true := by
  simp [isWrite, and_assoc]

/-- Settles O5: a write to word 0 brings its command, any other write does nothing on the bus. -/
theorem onlyWritesToCmdAct : Obligations.OnlyWritesToCmdAct := by
  intro s e later h hw
  obtain ⟨hr, -, -⟩ := isWrite_iff.1 hw
  refine ⟨fun ha i hd => step_command h ⟨hw, (wordSelect_eq_iff _ _).2 ha, hd⟩, fun ha => ⟨?_, present_sameBlock ..⟩⟩
  exact step_eq_tick h hr (busAccess_otherWord fun h0 => ha ((wordSelect_eq_iff _ _).1 h0))

/-! ### The order of bits and bytes (20_memory.md R54, 42_frame.md R132) -/

/-- After as many shifts as the frame has bits, the bit received as number `n` is `SR[39 - n]` (R54). -/
theorem foldl_shiftIn_bit {bs : List Bool} (hl : bs.length = 40) {n : Nat} {b : Bool} (hb : bs[n]? = some b) :
    (bs.foldl shiftIn 0).getLsbD (39 - n) = b := by
  have hn : n < 40 := hl ▸ (List.getElem?_eq_some_iff.1 hb).1
  have hi : 39 - (39 - n) = n := by omega
  rw [foldl_shiftIn_getLsbD _ _ _ (by omega), hl, if_pos (by omega), hi, List.getD_eq_getElem?_getD, hb]
  rfl

/-- A bit of a byte of the frame, counted from the byte's top, is a bit of the frame. -/
theorem byteSlice_bit {f : Frame} {n lo j : Nat} {b : Bool} (hj : j < 8) (hb : f.getLsbD (39 - n) = b)
    (hn : 39 - n = lo + (7 - j)) : (f.extractLsb' lo 8).getLsbD (7 - j) = b := by
  have h7 : 7 - j < 8 := by omega
  rw [BitVec.getLsbD_extractLsb', ← hn, hb]
  simp [h7]

/-- A frame is its five bytes, byte 0 on top (42_frame.md R132). -/
theorem frame_eq_bytes (f : Frame) : f = byte0 f ++ byte1 f ++ byte2 f ++ byte3 f ++ byte4 f := by
  simp only [byte0, byte1, byte2, byte3, byte4]
  rw [BitVec.extractLsb'_append_extractLsb'_eq_extractLsb', BitVec.extractLsb'_append_extractLsb'_eq_extractLsb',
    BitVec.extractLsb'_append_extractLsb'_eq_extractLsb', BitVec.extractLsb'_append_extractLsb'_eq_extractLsb',
    BitVec.extractLsb'_eq_self]
  all_goals rfl

/-- Settles O24: a run of 40 shifts leaves each bit at its place, and the bytes are slices of the register. -/
theorem bitsArriveMostSignificantFirst : Obligations.BitsArriveMostSignificantFirst := by
  refine ⟨fun bs hl n b hb => ?_, frame_eq_bytes⟩
  have hbit := foldl_shiftIn_bit hl hb
  refine ⟨hbit, fun j hj => ⟨?_, ?_, ?_, ?_, ?_⟩⟩
  all_goals exact fun hn => byteSlice_bit hj hbit (by omega)

end Sys2Proof.Machine

/-! ### 30_encoding.md: the opcode table, reserved words, ignored bits -/

namespace Sys2Proof.Machine

/-! ### The fields of a command word (30_encoding.md R70) -/

/-- A field is not changed by a mask that keeps all its bits. -/
theorem extractLsb'_and_mask {k n : Nat} {m : Word} (h : m.extractLsb' k n = BitVec.allOnes n) (w : Word) :
    (w &&& m).extractLsb' k n = w.extractLsb' k n := by
  rw [BitVec.extractLsb'_and, h, BitVec.and_allOnes]

/-- The mask of `NOP` and `READ` keeps `OP`. -/
theorem opField_and_opMask (w : Word) : opField (w &&& 0x0000000F) = opField w := extractLsb'_and_mask rfl w

/-- The mask of `SETUP`'s operand keeps `ARG`. -/
theorem argField_and_argMask (w : Word) : argField (w &&& 0x00000030) = argField w := extractLsb'_and_mask rfl w

/-- The mask of a whole `SETUP` keeps `OP` and `ARG`. -/
theorem fields_and_setupMask (w : Word) :
    opField (w &&& 0x0000003F) = opField w ∧ argField (w &&& 0x0000003F) = argField w :=
  ⟨extractLsb'_and_mask rfl w, extractLsb'_and_mask rfl w⟩

/-- A word masked to `OP` is `OP` as a number. -/
theorem and_opMask_toNat (w : Word) : (w &&& 0x0000000F).toNat = (opField w).toNat := by
  rw [BitVec.toNat_and, opField, BitVec.extractLsb'_toNat]
  exact Nat.and_two_pow_sub_one_eq_mod w.toNat 4

/-- A word whose `OP` bits are those of `v` has the `OP` of `v`. -/
theorem opField_of_and_opMask {v w : Word} (h : w &&& 0x0000000F = v &&& 0x0000000F) : opField w = opField v := by
  rw [← opField_and_opMask w, h, opField_and_opMask]

/-- `ARG` is `w[5:4]`, unsigned (R72). -/
theorem argField_toNat (w : Word) : (argField w).toNat = w.toNat / 16 % 4 := by
  rw [argField, BitVec.extractLsb'_toNat, Nat.shiftRight_eq_div_pow]

/-! ### The decoder, row by row (30_encoding.md R71) -/

theorem decode_of_op_nop {w : Word} (h : opField w = 0) : decode (.command w) = .ok .nop := by
  simp [decode, decodeCommand, h]

theorem decode_of_op_setup {w : Word} (h : opField w = 1) : decode (.command w) = .ok (.setup (argField w)) := by
  simp [decode, decodeCommand, h]

theorem decode_of_op_read {w : Word} (h : opField w = 2) : decode (.command w) = .ok .read := by
  simp [decode, decodeCommand, h]

theorem decode_of_op_reserved {w : Word} (h : 3 ≤ (opField w).toNat) :
    decode (.command w) = .error (.reservedOp (opField w)) := by
  have h0 : opField w ≠ 0 := fun he => by simp [he] at h
  have h1 : opField w ≠ 1 := fun he => by simp [he] at h
  have h2 : opField w ≠ 2 := fun he => by simp [he] at h
  simp only [decode, decodeCommand, if_neg h0, if_neg h1, if_neg h2]

/-- The decoder looks at `OP`, and at `ARG` only under `SETUP` (R70, R73). -/
theorem decode_command_congr {v w : Word} (ho : opField v = opField w)
    (ha : opField v = 1 → argField v = argField w) : decode (.command v) = decode (.command w) := by
  by_cases h1 : opField v = 1
  · rw [decode_of_op_setup h1, decode_of_op_setup (ho ▸ h1), ha h1]
  · simp only [decode, decodeCommand, ← ho, if_neg h1]

/-- Settles O8: `OP` of a word is what its row's mask leaves of it. -/
theorem decoderFollowsTheOpcodeTable : Obligations.DecoderFollowsTheOpcodeTable := by
  refine ⟨fun w => ⟨fun h => ?nop, fun h => ?setup, fun h => ?read, fun h => ?reserved⟩, rfl, rfl, rfl, rfl⟩
  case nop => exact decode_of_op_nop (by rw [← opField_and_opMask, h]; rfl)
  case setup => exact ⟨_, argField_toNat w, decode_of_op_setup (by rw [← opField_and_opMask, h]; rfl)⟩
  case read => exact decode_of_op_read (by rw [← opField_and_opMask, h]; rfl)
  case reserved => exact ⟨_, decode_of_op_reserved (and_opMask_toNat w ▸ h)⟩

/-! ### What an instruction reads of the ports: the line and the time -/

/-- `s` facing other inputs at its edge. -/
def State.withPort (p : Edge) (s : State) : State := { s with port := p }

@[simp] theorem withPort_port (p : Edge) (s : State) : (s.withPort p).port = p := rfl
@[simp] theorem withPort_phase (p : Edge) (s : State) : (s.withPort p).phase = s.phase := rfl
@[simp] theorem withPort_model (p : Edge) (s : State) : (s.withPort p).model = s.model := rfl

/-- The wait template reads of the ports the line alone. -/
theorem waitPulse_withPort {l : Bool} {b : Nat} {f : State → State} {s : State} {p : Edge}
    (hl : p.lineIn = s.port.lineIn) (hf : f (s.withPort p) = (f s).withPort p) :
    waitPulse l b f (s.withPort p) = (waitPulse l b f s).withPort p := by
  by_cases h : s.port.lineIn = l
  · by_cases hb : s.cnt.toNat = b
    · rw [waitPulse_timeout h hb, waitPulse_timeout (s := s.withPort p) (hl.trans h) hb]
      rfl
    · rw [waitPulse_count h hb, waitPulse_count (s := s.withPort p) (hl.trans h) hb]
      rfl
  · rw [waitPulse_exit h, waitPulse_exit (by simpa [hl] using h), hf]

/-- The gate reads of the ports the time alone. -/
theorem gateOpen_withPort {s : State} {p : Edge} (hn : p.nowMs = s.port.nowMs) :
    gateOpen (s.withPort p) = gateOpen s := by
  simp only [gateOpen, elapsed, withPort_port, hn]
  rfl

theorem acceptRead_withPort {s : State} {p : Edge} (hn : p.nowMs = s.port.nowMs) :
    acceptRead (s.withPort p) = (acceptRead s).withPort p := by
  simp only [acceptRead, withPort_port, hn]
  rfl

/-- `SETUP` reads no port. -/
theorem exec_setup_withPort (m : BitVec 2) (p : Edge) (s : State) :
    ∃ t, exec (.setup m) s = .next t ∧ exec (.setup m) (s.withPort p) = .next (t.withPort p) := by
  by_cases hp : s.phase = .idle
  · cases hm : modelOfCode m with
    | none => exact ⟨s, by simp [exec, execSetup, whenIdle_idle hp, hm], by simp [exec, execSetup, whenIdle, hm]⟩
    | some k =>
      obtain rfl := modelOfCode_eq_some hm
      exact ⟨_, exec_setup_code k hp, exec_setup_code k hp⟩
  · exact ⟨s, exec_busy_setup m hp, exec_busy_setup m hp⟩

/-- `READ` reads of the ports the time alone. -/
theorem exec_read_withPort {s : State} {p : Edge} (hn : p.nowMs = s.port.nowMs) :
    ∃ t, exec .read s = .next t ∧ exec .read (s.withPort p) = .next (t.withPort p) := by
  by_cases hp : s.phase = .idle
  · refine ⟨_, exec_read_idle hp, ?_⟩
    rw [exec_read_idle (by simpa using hp), gateOpen_withPort hn, acceptRead_withPort hn]
    split_ifs <;> rfl
  · exact ⟨s, exec_busy_read hp, exec_busy_read hp⟩

/-- `CHECK` reads no port: it decides by the frame, the model and the parameters. -/
theorem exec_check_withPort (p : Edge) (s : State) :
    ∃ t, exec .check s = .next t ∧ exec .check (s.withPort p) = .next (t.withPort p) := by
  refine ⟨_, rfl, congrArg Host.Outcome.next ?_⟩
  have hauto : autoDetect (s.withPort p) = (autoDetect s).withPort p := by
    simp only [autoDetect, apply_ite (State.withPort p)]
    rfl
  cases hm : s.model <;> simp only [withPort_model, hm, hauto, apply_ite (State.withPort p)] <;> rfl

/-- An instruction sees of the ports only the line and the time: under other ports that agree on these it has the same
effect. -/
theorem exec_withPort {s : State} {p : Edge} (hl : p.lineIn = s.port.lineIn) (hn : p.nowMs = s.port.nowMs)
    (i : Instr) : ∃ t, exec i s = .next t ∧ exec i (s.withPort p) = .next (t.withPort p) := by
  cases i with
  | nop | idle => exact ⟨s, rfl, rfl⟩
  | setup m => exact exec_setup_withPort m p s
  | read => exact exec_read_withPort hn
  | wake => exact ⟨_, exec_wake s, by rw [exec_wake, apply_ite (State.withPort p)]; rfl⟩
  | resp | ackl | ackh | bitl | bith => exact ⟨_, rfl, congrArg Host.Outcome.next (waitPulse_withPort hl rfl)⟩
  | check => exact exec_check_withPort p s

/-- A tick sees of the ports only `tick_en`, the line and the time. -/
theorem tick_withPort {s : State} {p : Edge} (ht : p.tickEn = s.port.tickEn) (hl : p.lineIn = s.port.lineIn)
    (hn : p.nowMs = s.port.nowMs) : ∃ t, tick s = .next t ∧ tick (s.withPort p) = .next (t.withPort p) := by
  cases h : s.port.tickEn with
  | false => exact ⟨s, tick_none h, tick_none (ht.trans h)⟩
  | true => simpa [tick, h, ht] using exec_withPort hl hn (decodePhase (phaseCode s.phase))

/-! ### Reserved words and ignored bits (30_encoding.md R73) -/

/-- A write to `CMD` of a word with a reserved `OP`, or of `SETUP` with the reserved model code, does nothing on the
bus. -/
theorem busAccess_reservedWord {s : State} (hw : isWrite s.port = true) (ha : wordSelect s.port.addr = 0)
    (h : 3 ≤ (s.port.wdata &&& 0x0000000F).toNat ∨ s.port.wdata &&& 0x0000003F = 0x00000031) :
    busAccess s = .next s := by
  rcases h with h | h
  · exact busAccess_reserved (decode_of_op_reserved (and_opMask_toNat _ ▸ h))
  · obtain ⟨hop, harg⟩ := fields_and_setupMask s.port.wdata
    have hop1 : opField s.port.wdata = 1 := by rw [← hop, h]; rfl
    have harg3 : argField s.port.wdata = 3 := by rw [← harg, h]; rfl
    have hc : Commands s.port (.setup 3) := ⟨hw, ha, harg3 ▸ decode_of_op_setup hop1⟩
    rw [busAccess_command hc, exec_setup_reserved]

/-- Writes to `CMD` of two words that decode alike have the same effect. -/
theorem busAccess_sameCommand {s : State} {w : Word} (hw : isWrite s.port = true) (ha : wordSelect s.port.addr = 0)
    (hd : decode (.command s.port.wdata) = decode (.command w)) :
    ∃ t, busAccess s = .next t ∧
      busAccess (s.withPort { s.port with wdata := w }) = .next (t.withPort { s.port with wdata := w }) := by
  cases h : decode (.command s.port.wdata) with
  | ok i =>
    have hc : Commands (s.withPort { s.port with wdata := w }).port i := ⟨hw, ha, hd ▸ h⟩
    rw [busAccess_command ⟨hw, ha, h⟩, busAccess_command hc]
    exact exec_withPort (p := { s.port with wdata := w }) rfl rfl i
  | error d => exact ⟨s, busAccess_reserved h, busAccess_reserved (d := d) (hd ▸ h)⟩

/-- Two edges that write words that decode alike to `CMD`, and agree in the other inputs, have the same effect. -/
theorem step_sameCommand {s : State} {e : Edge} {later : List Edge} {w : Word} (h : s.pending = e :: later)
    (hw : isWrite e = true) (ha : wordSelect e.addr = 0) (hd : decode (.command e.wdata) = decode (.command w)) :
    ∃ t, step s = .next t ∧
      step { s with pending := { e with wdata := w } :: later } = .next (t.withPort { e with wdata := w }) := by
  obtain ⟨hr, -, -⟩ := isWrite_iff.1 hw
  obtain ⟨u, hu, hu'⟩ := busAccess_sameCommand (s := present e later s) hw ha hd
  have hport : u.port = e := by
    obtain ⟨v, hv, -, -, -, -, -, -, hvp, -⟩ := busAccess_frame (present e later s) hr
    cases hu.symm.trans hv
    exact hvp
  obtain ⟨t, ht, ht'⟩ := tick_withPort (s := u) (p := { e with wdata := w }) (by rw [hport]) (by rw [hport])
    (by rw [hport])
  have hpresent : present { e with wdata := w } later { s with pending := { e with wdata := w } :: later } =
      (present e later s).withPort { e with wdata := w } := rfl
  refine ⟨t, by rw [step_run h hr, hu, andThen_next, ht], ?_⟩
  rw [step_run (e := { e with wdata := w }) (later := later) rfl hr, hpresent]
  exact (congrArg (andThen · tick) hu').trans ht'

/-- Settles O10: a reserved word does nothing on the bus, and words that differ in ignored bits decode alike. -/
theorem reservedWordsAndIgnoredBitsHaveNoEffect : Obligations.ReservedWordsAndIgnoredBitsHaveNoEffect := by
  refine ⟨fun s e later h hw ha hres => ⟨?_, present_sameBlock ..⟩, fun s e later w h hw ha hop harg => ?_⟩
  · obtain ⟨hr, -, -⟩ := isWrite_iff.1 hw
    exact step_eq_tick h hr (busAccess_reservedWord hw ha hres)
  · refine step_sameCommand h hw ha (decode_command_congr (opField_of_and_opMask hop) fun h1 => ?_)
    have hsetup : e.wdata &&& 0x0000000F = 0x00000001 :=
      BitVec.eq_of_toNat_eq (by rw [and_opMask_toNat, h1]; rfl)
    rw [← argField_and_argMask, harg hsetup, argField_and_argMask]

end Sys2Proof.Machine

/-! ### 40_commands.md: the host commands -/

namespace Sys2Proof.Machine

/-! ### The gate of a `READ` (40_commands.md R95) -/

/-- The gate in the rule's words: `elapsed` is the difference of the times modulo 2^32. -/
theorem gateOpen_iff_elapsed (s : State) : gateOpen s = true ↔
    s.armed = true ∨ minPeriod s.cfg s.model ≤ (s.port.nowMs.toNat + 2 ^ 32 - s.lastMs.toNat) % 2 ^ 32 := by
  rw [gateOpen_eq_true, elapsed_toNat]

/-- The gate is closed exactly when the block is not armed and the period has not passed. -/
theorem gateOpen_eq_false (s : State) : gateOpen s = false ↔
    s.armed = false ∧ (s.port.nowMs.toNat + 2 ^ 32 - s.lastMs.toNat) % 2 ^ 32 < minPeriod s.cfg s.model := by
  rw [← Bool.not_eq_true, gateOpen_iff_elapsed, not_or, Bool.not_eq_true, not_le]

/-- An armed block's gate is open at any time. -/
theorem gateOpen_of_armed {s : State} (h : s.armed = true) : gateOpen s = true := (gateOpen_eq_true s).2 (.inl h)

/-! ### `READ` in `IDLE` (40_commands.md R94) -/

theorem exec_read_accepted {s : State} (hp : s.phase = .idle) (hg : gateOpen s = true) :
    exec .read s = .next (acceptRead s) := by rw [exec_read_idle hp, if_pos hg]

theorem exec_read_passed {s : State} (hp : s.phase = .idle) (hg : gateOpen s = false) :
    exec .read s = .next (passRead s) := by simp [exec_read_idle hp, hg]

/-- Settles O13: the gate, in the rule's words, decides between `acceptRead` and `passRead`; after reset it is open
because the block is armed. -/
theorem readIsGatedByTheMinimumPeriod : Obligations.ReadIsGatedByTheMinimumPeriod := by
  refine ⟨fun s hp => ⟨fun hopen => ?accepted, fun hclosed => ?passed⟩, fun c => ⟨rfl, rfl, rfl⟩, ?afterReset⟩
  case accepted =>
    exact ⟨acceptRead s, exec_read_accepted hp ((gateOpen_iff_elapsed s).2 hopen), rfl, rfl, rfl, rfl⟩
  case passed => exact exec_read_passed hp ((gateOpen_eq_false s).2 hclosed)
  case afterReset => exact ⟨_, exec_read_accepted rfl (gateOpen_of_armed rfl), by decide, rfl⟩

/-! ### Commands while busy, `NOP`, `SETUP` (40_commands.md R91 to R93) -/

/-- Settles O14: each command has no effect outside `IDLE`, and so has whatever else the bus carries. -/
theorem commandsWhileBusyAreIgnored : Obligations.CommandsWhileBusyAreIgnored := by
  refine fun s hp => ⟨⟨exec_nop s, fun m => exec_busy_setup m hp, exec_busy_read hp⟩, fun e later h hr => ?_⟩
  exact ⟨step_busy h hr hp, present_sameBlock e later s⟩

/-- Settles O11: `NOP` answers its own state, and the zero word has its `OP`. -/
theorem nopChangesNothing : Obligations.NopChangesNothing :=
  ⟨exec_nop, decode_of_op_nop rfl, State.reset, exec_nop State.reset, by decide⟩

/-- Settles O12: `SETUP` with a model's code is `setModel`, which arms the block and so opens the gate; the code 3 has
no effect. -/
theorem setupSetsModelAndArms : Obligations.SetupSetsModelAndArms := by
  refine ⟨fun s hp => ⟨fun k => exec_setup_code k hp, exec_setup_reserved s, fun k t p ht => ?gate⟩, ?afterReset⟩
  case gate =>
    cases (exec_setup_code k hp).symm.trans ht
    exact gateOpen_of_armed rfl
  case afterReset =>
    exact ⟨.setup (modelCode .dht22Family), _, decode_of_op_setup rfl, exec_setup_code .dht22Family rfl, rfl, rfl,
      by decide⟩

end Sys2Proof.Machine

/-! ### 41_sampler.md: idle ticks, the wake pulse, the wait template, `BITH`, the transition table -/

namespace Sys2Proof.Machine

/-! ### Every edge answers a state -/

theorem tick_next (s : State) : ∃ t, tick s = .next t := by
  obtain ⟨t, ht, -⟩ := tick_frame s
  exact ⟨t, ht⟩

theorem step_next (s : State) : ∃ t, step s = .next t := by
  cases hp : s.pending with
  | nil => exact ⟨s, step_nil hp⟩
  | cons e later =>
    cases hr : e.rst with
    | true => exact ⟨_, step_reset hp hr⟩
    | false =>
      obtain ⟨u, hu, -⟩ := busAccess_frame (present e later s) (by simpa using hr)
      rw [step_run hp hr, hu, andThen_next]
      exact tick_next u

theorem runEdges_next (k : Nat) (s : State) : ∃ t, runEdges k s = .next t := by
  induction k generalizing s with
  | zero => exact ⟨s, rfl⟩
  | succ k ih =>
    obtain ⟨u, hu⟩ := step_next s
    rw [runEdges_succ, hu, andThen_next]
    exact ih u

/-- Two answers of one run are the same state. -/
theorem next_unique {o : Host.Outcome State Fault Refusal} {t u : State} (ht : o = .next t) (hu : o = .next u) :
    t = u := by
  injection ht.symm.trans hu

theorem runEdges_one (s : State) : runEdges 1 s = step s := by
  obtain ⟨t, ht⟩ := step_next s
  rw [runEdges_succ, ht, andThen_next, runEdges_zero]

/-! ### The same block at two edges -/

theorem SameBlock.trans {s t u : State} (h : SameBlock s t) (h' : SameBlock t u) : SameBlock s u :=
  Eq.trans h' (congrArg
    (fun x : State => { x with port := u.port, pending := u.pending, rdata := u.rdata, freeCount := u.freeCount }) h)

theorem SameBlock.phase_eq {s t : State} (h : SameBlock s t) : t.phase = s.phase := by rw [h]

theorem SameBlock.cfg_eq {s t : State} (h : SameBlock s t) : t.cfg = s.cfg := by rw [h]

theorem SameBlock.model_eq {s t : State} (h : SameBlock s t) : t.model = s.model := by rw [h]

/-! ### The outputs in a known phase (10_state.md R44) -/

theorem outputs_idle {s : State} (h : s.phase = .idle) :
    lineOe s = false ∧ linePu s = true ∧ crit s = false ∧ busy s = false := by
  simp [lineOe, linePu, crit, sampling, busy, h]

theorem outputs_wake {s : State} (h : s.phase = .wake) : lineOe s = true ∧ linePu s = false ∧ crit s = false := by
  simp [lineOe, linePu, crit, sampling, h]

theorem outputs_resp {s : State} (h : s.phase = .resp) : lineOe s = false ∧ linePu s = true := by
  simp [lineOe, linePu, h]

theorem outputs_bith {s : State} (h : s.phase = .bith) : lineOe s = false ∧ linePu s = true ∧ crit s = true := by
  simp [lineOe, linePu, crit, sampling, h]

/-! ### Edges out of `IDLE` (41_sampler.md R112) -/

/-- An edge without reset and access leaves an idle block as it is, with a tick or without. -/
theorem step_idle_noAccess {s : State} {e : Edge} {later : List Edge} (hp : s.phase = .idle)
    (h : s.pending = e :: later) (hr : e.rst = false) (hs : e.sel = false) :
    step s = .next (present e later s) := by
  rw [step_eq_tick h hr (busAccess_noAccess (by simpa using hs)), tick_idle (by simpa using hp)]

/-- So does any run of such edges. -/
theorem runEdges_idle_noAccess {s : State} {es later : List Edge} (hp : s.phase = .idle)
    (hes : ∀ e ∈ es, e.rst = false ∧ e.sel = false) (h : s.pending = es ++ later) :
    ∃ t, runEdges es.length s = .next t ∧ SameBlock s t ∧ t.pending = later := by
  induction es generalizing s with
  | nil => exact ⟨s, rfl, rfl, h⟩
  | cons e es ih =>
    obtain ⟨⟨hr, hs⟩, hes⟩ := List.forall_mem_cons.1 hes
    obtain ⟨t, ht, hb, hl⟩ := ih (s := present e (es ++ later) s) hp hes rfl
    refine ⟨t, ?_, (present_sameBlock e (es ++ later) s).trans hb, hl⟩
    rw [List.length_cons, runEdges_succ, step_idle_noAccess (later := es ++ later) hp h hr hs, andThen_next, ht]

/-- An accepted `READ` takes its effect, then the tick of its edge comes (10_state.md R45). -/
theorem step_read_accepted {s : State} {e : Edge} {later : List Edge} (hp : s.phase = .idle)
    (h : s.pending = e :: later) (hc : Commands e .read) (hg : gateOpen (present e later s) = true) :
    step s = tick (acceptRead (present e later s)) := by
  rw [step_command h hc, exec_read_accepted (by simpa using hp) hg, andThen_next]

/-- Without an accepted `READ` an edge leaves the block in `IDLE`. -/
theorem step_stays_idle {s : State} {e : Edge} {later : List Edge} (hp : s.phase = .idle)
    (h : s.pending = e :: later) (hr : e.rst = false)
    (hn : ¬ (Commands e .read ∧ gateOpen (present e later s) = true)) :
    ∃ t, step s = .next t ∧ t.phase = .idle := by
  have htick {u : State} (hb : busAccess (present e later s) = .next u) (hu : u.phase = .idle) :
      step s = .next u := by
    rw [step_run h hr, hb, andThen_next, tick_idle hu]
  rcases busAccess_cases (present e later s) (by simpa using hr) with
    hb | ⟨-, k, -, hb⟩ | ⟨-, hc, hg, -⟩ | ⟨-, -, -, hb⟩
  case inr.inr.inl => exact absurd ⟨hc, hg⟩ hn
  all_goals exact ⟨_, htick hb hp, hp⟩

/-- Settles O15: a quiet edge leaves an idle block as it is, so a run of them does, by induction on the edges; an edge
at which no `READ` is accepted ends in `IDLE`. -/
theorem idleTicksChangeNothing : Obligations.IdleTicksChangeNothing := by
  refine ⟨exec_idle, fun s es later hp hes h => ?run, fun s e later hp h hr => ?leave⟩
  case run =>
    obtain ⟨t, ht, hb, hl⟩ := runEdges_idle_noAccess hp hes h
    exact ⟨t, ht, hb, hl, outputs_idle (hb.phase_eq.trans hp)⟩
  case leave =>
    by_cases hread : Commands e .read ∧ gateOpen (present e later s) = true
    · obtain ⟨t, ht⟩ := step_next s
      exact ⟨t, ht, fun _ => hread⟩
    · obtain ⟨t, ht, hi⟩ := step_stays_idle hp h hr hread
      exact ⟨t, ht, fun hne => absurd hi hne⟩

/-! ### Runs of ticks that count (41_sampler.md R111, R113) -/

/-- In phase `p` a tick with the line at `level` counts up to `b`: the wake pulse whatever the level, a waiting phase
at the level it waits out. -/
def CountsTo (c : Cfg) (m : SensorModel) (p : Phase) (level : Bool) (b : Nat) : Prop :=
  (p = .wake ∧ wakeTicks c m = b) ∨ waitsFor c p = some (level, b)

theorem CountsTo.busy {c : Cfg} {m : SensorModel} {p : Phase} {level : Bool} {b : Nat}
    (h : CountsTo c m p level b) : p ≠ .idle := by
  rcases h with ⟨rfl, -⟩ | h
  · decide
  · exact phase_ne_idle_of_waitsFor h

/-- What is counted to fits `CNT`. -/
theorem CountsTo.lt {c : Cfg} {m : SensorModel} {p : Phase} {level : Bool} {b : Nat}
    (h : CountsTo c m p level b) (hok : c.Ok) : b < 65536 := by
  rcases h with ⟨-, rfl⟩ | h
  · exact (wakeTicks_bounds hok m).2
  · exact (waitsFor_bounds hok h).2

/-- Below what it counts to, an edge with a tick counts and does nothing else. -/
theorem step_countsTo {s : State} {e : Edge} {later : List Edge} {b : Nat}
    (hc : CountsTo s.cfg s.model s.phase e.lineIn b) (h : s.pending = e :: later) (hr : e.rst = false)
    (ht : e.tickEn = true) (hb : s.cnt.toNat ≠ b) : step s = .next (countTick (present e later s)) := by
  rw [step_busy h hr hc.busy]
  rcases hc with ⟨hp, rfl⟩ | hw
  · exact (tick_wake (s := present e later s) ht hp).trans (congrArg _ (if_neg hb))
  · exact tick_count (s := present e later s) ht hw rfl hb

section CountingRun

variable {s : State} {es later : List Edge} {b : Nat}

/-- A run of ticks that stays within `b` leaves their number in `CNT` and changes nothing else. -/
theorem runEdges_counts (hok : s.cfg.Ok) (hc : ∀ e ∈ es, CountsTo s.cfg s.model s.phase e.lineIn b)
    (ht : Ticking es) (h : s.pending = es ++ later) (hn : s.cnt.toNat + es.length ≤ b) :
    ∃ t, runEdges es.length s = .next t ∧ SameBlock { s with cnt := t.cnt } t ∧
      t.cnt.toNat = s.cnt.toNat + es.length ∧ t.pending = later := by
  induction es generalizing s with
  | nil => exact ⟨s, rfl, rfl, rfl, h⟩
  | cons e es ih =>
    obtain ⟨hce, hces⟩ := List.forall_mem_cons.1 hc
    obtain ⟨⟨hr, hte⟩, htes⟩ := List.forall_mem_cons.1 ht
    rw [List.length_cons] at hn
    have hstep := step_countsTo (later := es ++ later) hce h hr hte (by omega)
    have hcnt : (countTick (present e (es ++ later) s)).cnt.toNat = s.cnt.toNat + 1 :=
      countTick_cnt_toNat (s := present e (es ++ later) s) (hce.lt hok) (show s.cnt.toNat < b by omega)
    obtain ⟨t, hrun, hsame, htn, hl⟩ :=
      ih (s := countTick (present e (es ++ later) s)) hok hces htes rfl (by omega)
    refine ⟨t, ?_, hsame, by rw [htn, hcnt, List.length_cons]; omega, hl⟩
    rw [List.length_cons, runEdges_succ, hstep, andThen_next, hrun]

/-- A run of one tick more than `b` leaves is a tick at the count `b`. -/
theorem runEdges_counts_last (hok : s.cfg.Ok) (hc : ∀ e ∈ es, CountsTo s.cfg s.model s.phase e.lineIn b)
    (ht : Ticking es) (h : s.pending = es ++ later) (hle : s.cnt.toNat ≤ b)
    (hn : s.cnt.toNat + es.length = b + 1) :
    ∃ u, runEdges es.length s = tick u ∧ SameBlock { s with cnt := u.cnt } u ∧ u.cnt.toNat = b ∧
      u.port ∈ es ∧ u.port.tickEn = true ∧ u.pending = later := by
  obtain rfl | ⟨es, e, rfl⟩ := es.eq_nil_or_concat'
  · simp at hn; omega
  rw [List.length_append, List.length_singleton] at hn
  obtain ⟨hr, hte⟩ := ht e (by simp)
  obtain ⟨t, hrun, hsame, htn, hl⟩ := runEdges_counts (later := e :: later) hok
    (fun x hx => hc x (by simp [hx])) (fun x hx => ht x (by simp [hx])) (by simpa using h)
    (show s.cnt.toNat + es.length ≤ b by omega)
  have hbusy : t.phase ≠ .idle := hsame.phase_eq.trans_ne (hc e (by simp)).busy
  refine ⟨present e later t, ?_, hsame.trans (present_sameBlock e later t), ?_, ?_, hte, rfl⟩
  · rw [List.length_append, List.length_singleton, runEdges_add, hrun, andThen_next, runEdges_one,
      step_busy hl hr hbusy]
  · rw [present_cnt]; omega
  · simp

end CountingRun

/-! ### The wake pulse (41_sampler.md R113) -/

/-- A run of ticks one longer than the wake pulse has left releases the line. -/
theorem runEdges_releases {s : State} {es later : List Edge} (hok : s.cfg.Ok) (hp : s.phase = .wake)
    (hle : s.cnt.toNat ≤ wakeTicks s.cfg s.model) (ht : Ticking es) (h : s.pending = es ++ later)
    (hn : s.cnt.toNat + es.length = wakeTicks s.cfg s.model + 1) :
    ∃ t, runEdges es.length s = .next t ∧ SameBlock { s with phase := .resp, cnt := 0 } t ∧ t.pending = later := by
  obtain ⟨u, hrun, hsame, hcnt, -, htick, hl⟩ :=
    runEdges_counts_last hok (fun _ _ => .inl ⟨hp, rfl⟩) ht h hle hn
  have hend : u.cnt.toNat = wakeTicks u.cfg u.model := by rw [hcnt, hsame.cfg_eq, hsame.model_eq]
  refine ⟨releaseLine u, ?_, congrArg releaseLine hsame, hl⟩
  rw [hrun, tick_wake htick (hsame.phase_eq.trans hp), if_pos hend]

/-- Settles O16: below the wake length every tick counts, and the tick at it releases the line. -/
theorem wakePulseLastsItsLength : Obligations.WakePulseLastsItsLength := by
  refine ⟨fun s => ⟨fun hc => ?release, fun hc => ?count⟩, fun c => ⟨rfl, rfl, rfl⟩,
    fun s es later hok hp hle ht h => ?run⟩
  case release => rw [exec_wake, if_pos hc]; rfl
  case count => rw [exec_wake, if_neg hc]; rfl
  case run =>
    obtain ⟨t, hrun⟩ := runEdges_next es.length s
    refine ⟨t, hrun, fun hn => ?within, fun hn => ?released⟩
    case within =>
      obtain ⟨u, hu, hsame, hcnt, -⟩ := runEdges_counts hok (fun _ _ => .inl ⟨hp, rfl⟩) ht h hn
      cases next_unique hrun hu
      exact ⟨hsame, hcnt, outputs_wake (hsame.phase_eq.trans hp)⟩
    case released =>
      obtain ⟨u, hu, hsame, -⟩ := runEdges_releases hok hp hle ht h hn
      cases next_unique hrun hu
      exact ⟨hsame, outputs_resp hsame.phase_eq⟩

/-! ### The wait template over a run of samples (41_sampler.md R111) -/

/-- A run of samples at a waiting phase's level, one longer than its bound allows, raises `Timeout`. -/
theorem runEdges_times_out {s : State} {es later : List Edge} {l : Bool} {b : Nat} (hok : s.cfg.Ok)
    (hw : waitsFor s.cfg s.phase = some (l, b)) (hle : s.cnt.toNat ≤ b) (ht : Ticking es)
    (hl : ∀ e ∈ es, e.lineIn = l) (h : s.pending = es ++ later) (hn : s.cnt.toNat + es.length = b + 1) :
    ∃ t, runEdges es.length s = .next t ∧
      SameBlock { s with cnt := t.cnt, rstat := .timeout, phase := .idle } t ∧ t.cnt.toNat = b ∧
      t.pending = later := by
  obtain ⟨u, hrun, hsame, hcnt, hmem, htick, hlast⟩ :=
    runEdges_counts_last hok (fun e he => .inr (hl e he ▸ hw)) ht h hle hn
  have hwu : waitsFor u.cfg u.phase = some (l, b) := by rw [hsame.cfg_eq, hsame.phase_eq]; exact hw
  refine ⟨raiseError .timeout u, ?_, congrArg (raiseError .timeout) hsame, hcnt, hlast⟩
  rw [hrun, tick_timeout htick hwu (hl _ hmem) hcnt]

/-- The phase after a wait is another one, and not `IDLE`. -/
theorem afterWait_ne {p q : Phase} (h : afterWait p = some q) : q ≠ p ∧ q ≠ .idle := by
  cases p <;> simp [afterWait] at h <;> cases h <;> decide

/-- A waiting phase is `BITH` or one that only waits. -/
theorem afterWait_of_waitsFor {c : Cfg} {p : Phase} {l : Bool} {b : Nat} (h : waitsFor c p = some (l, b)) :
    (p = .bith ∧ l = true) ∨ ∃ q, afterWait p = some q := by
  cases p with
  | idle | wake | check => simp [waitsFor] at h
  | resp | ackl | ackh | bitl => exact .inr ⟨_, rfl⟩
  | bith =>
    obtain ⟨hl, -⟩ : true = l ∧ c.tmoBith = b := by simpa [waitsFor] using h
    exact .inl ⟨rfl, hl.symm⟩

/-- A sample at the other level ends a waiting phase and is the first of the next pulse. -/
theorem tick_otherLevel {s : State} {l : Bool} {b : Nat} (hw : waitsFor s.cfg s.phase = some (l, b))
    (ht : s.port.tickEn = true) (hl : s.port.lineIn ≠ l) :
    ∃ t, tick s = .next t ∧ t.cnt = 1 ∧ t.phase ≠ s.phase ∧ t.phase ≠ .idle := by
  rcases afterWait_of_waitsFor hw with ⟨hp, rfl⟩ | ⟨q, hq⟩
  · refine ⟨endBit s, tick_endBit ht hp (by simpa using hl), rfl, ?_⟩
    rw [endBit_phase, hp]
    split <;> decide
  · exact ⟨nextPulse q s, tick_pass ht hw hq hl, rfl, afterWait_ne hq⟩

/-- Settles O18: within the bound every sample counts, the one after it raises `Timeout`, and a sample at the other
level is the first of the next pulse. -/
theorem pulsesPassUpToTheirBound : Obligations.PulsesPassUpToTheirBound := by
  refine ⟨fun s es later l b hok hw hle ht hl h => ?run, fun s l b => tick_otherLevel, fun s hc => ?enterResp⟩
  case run =>
    obtain ⟨t, hrun⟩ := runEdges_next es.length s
    refine ⟨t, hrun, fun hn => ?within, fun hn => ?timeout⟩
    case within =>
      obtain ⟨u, hu, hsame, hcnt, -⟩ := runEdges_counts hok (fun e he => .inr (hl e he ▸ hw)) ht h hn
      cases next_unique hrun hu
      exact ⟨hsame, hcnt⟩
    case timeout =>
      obtain ⟨u, hu, hsame, hcnt, -⟩ := runEdges_times_out hok hw hle ht hl h hn
      cases next_unique hrun hu
      exact ⟨hsame, hcnt⟩
  case enterResp => exact ⟨releaseLine s, by rw [exec_wake, if_pos hc], rfl, rfl⟩

/-! ### `BITH` (41_sampler.md R118) -/

/-- The shift in the spec's first form, `{ SR[38:0], bit }` (42_frame.md R130). -/
theorem shiftIn_eq_append (sr : Frame) (bit : Bool) : shiftIn sr bit = sr.extractLsb' 0 39 ++ BitVec.ofBool bit := by
  refine BitVec.eq_of_getLsbD_eq fun i hi => ?_
  rw [shiftIn_getLsbD, BitVec.getLsbD_append, BitVec.getLsbD_extractLsb', BitVec.getLsbD_ofBool]
  rcases Nat.eq_zero_or_pos i with rfl | hpos
  · simp
  · simp [hi, Nat.pos_iff_ne_zero.1 hpos, show ¬ i < 1 by omega, show i - 1 < 39 by omega]

/-- The 40th bit is counted as the others are (42_frame.md R131). -/
theorem bitcnt_succ (n : BitVec 6) : n + 1 = if n = 39 then 40 else n + 1 := by
  split
  case isTrue h => rw [h]; rfl
  case isFalse => rfl

/-- The exit of `BITH`, written out. -/
theorem endBit_eq (s : State) : endBit s =
    { s with
      sr := s.sr.extractLsb' 0 39 ++ BitVec.ofBool (decide (s.cfg.tBit < s.cnt.toNat))
      bitcnt := if s.bitcnt = 39 then 40 else s.bitcnt + 1
      phase := if s.bitcnt = 39 then .check else .bitl
      cnt := 1 } := by
  rw [← shiftIn_eq_append, ← bitcnt_succ]
  rfl

theorem exec_bith_low {s : State} (hl : s.port.lineIn = false) : exec .bith s = .next (endBit s) := by
  rw [exec_bith, waitPulse_exit (by simp [hl])]

/-- Settles O19: the low sample is `endBit`, the high ones are the wait template; in `BITH` the invariant bounds `CNT`
below by 1. -/
theorem bithShiftsTheDecodedBit : Obligations.BithShiftsTheDecodedBit := by
  refine ⟨fun s => ⟨fun hl => ?low, fun hl hb => ?timeout, fun hl hb => ?count, outputs_bith, fun hl h39 => ?last⟩,
    fun s hi hp => ?width⟩
  case low => rw [exec_bith_low hl, endBit_eq]
  case timeout => rw [exec_bith, waitPulse_timeout hl hb]; rfl
  case count => rw [exec_bith, waitPulse_count hl hb]; rfl
  case last => exact ⟨endBit s, exec_bith_low hl, crit_of_phase (p := .check) (if_pos h39)⟩
  case width =>
    obtain ⟨-, hpos⟩ := hi.waitCnt true s.cfg.tmoBith (by rw [hp]; rfl)
    exact hpos (by simp [hp])

/-! ### The transition table (41_sampler.md R110) -/

/-- The row of a phase that only waits: at the other level it passes to the next phase with `CNT` = 1. -/
theorem tick_row_pass {s t : State} {l : Bool} {b : Nat} {q : Phase} (ht : s.port.tickEn = true)
    (h : tick s = .next t) (hw : waitsFor s.cfg s.phase = some (l, b)) (hq : afterWait s.phase = some q)
    (hl : s.port.lineIn ≠ l) : t.phase = q ∧ t.cnt = 1 := by
  cases next_unique h (tick_pass ht hw hq hl)
  exact ⟨rfl, rfl⟩

/-- Without a tick only an accepted `READ` changes `PHASE`, to `WAKE` with `CNT` = 0. -/
theorem step_noTick {s : State} {e : Edge} {later : List Edge} (h : s.pending = e :: later) (hr : e.rst = false)
    (ht : e.tickEn = false) : ∃ t, step s = .next t ∧
      (s.phase = .idle → Commands e .read → gateOpen (present e later s) = true → t.phase = .wake ∧ t.cnt = 0) ∧
      (¬ (s.phase = .idle ∧ Commands e .read ∧ gateOpen (present e later s) = true) → t.phase = s.phase) := by
  by_cases hp : s.phase = .idle
  · by_cases hread : Commands e .read ∧ gateOpen (present e later s) = true
    · obtain ⟨hc, hg⟩ := hread
      refine ⟨acceptRead (present e later s), ?_, fun _ _ _ => ⟨rfl, rfl⟩, fun hn => absurd ⟨hp, hc, hg⟩ hn⟩
      rw [step_read_accepted hp h hc hg, tick_none ht]
    · obtain ⟨t, hstep, hi⟩ := step_stays_idle hp h hr hread
      exact ⟨t, hstep, fun _ hc hg => absurd ⟨hc, hg⟩ hread, fun _ => hi.trans hp.symm⟩
  · refine ⟨present e later s, ?_, fun hi => absurd hi hp, fun _ => rfl⟩
    rw [step_busy h hr hp, tick_none ht]

/-- Settles O20: each row is what a tick of its phase answers; no row needs more of the invariant than its own
premises. -/
theorem sequencerFollowsItsTransitionTable : Obligations.SequencerFollowsItsTransitionTable := by
  refine ⟨fun s _ ht => ?rows, fun s e later => step_noTick⟩
  obtain ⟨t, h⟩ := tick_next s
  refine ⟨t, h, fun hp => ?idle, fun hp hc => ?wakeCount, fun hp hc => ?wakeEnd, fun l b hw hl hc => ?waitCount,
    fun l b hw hl hc => ?timeout, fun hp hl => ?resp, fun hp hl => ?ackl, fun hp hl => ?ackh, fun hp hl => ?bitl,
    fun hp hl hb => ?bith, fun hp hl hb => ?bithLast, fun hp => ?check⟩
  case idle => exact next_unique h (tick_idle hp)
  case wakeCount =>
    cases next_unique h ((tick_wake ht hp).trans (congrArg _ (if_neg hc.ne)))
    exact ⟨hp, rfl⟩
  case wakeEnd =>
    cases next_unique h ((tick_wake ht hp).trans (congrArg _ (if_pos hc)))
    exact ⟨rfl, rfl⟩
  case waitCount =>
    cases next_unique h (tick_count ht hw hl hc.ne)
    exact ⟨rfl, rfl⟩
  case timeout =>
    cases next_unique h (tick_timeout ht hw hl hc)
    exact ⟨rfl, rfl⟩
  case resp | ackl | ackh | bitl =>
    exact tick_row_pass ht h (by rw [hp]; rfl) (by rw [hp]; rfl) (by simp [hl])
  case bith =>
    have hne : s.bitcnt ≠ 39 := fun h39 => by simp [h39] at hb
    cases next_unique h (tick_endBit ht hp hl)
    exact ⟨if_neg hne, rfl, rfl, rfl⟩
  case bithLast =>
    cases next_unique h (tick_endBit ht hp hl)
    exact ⟨if_pos hb, rfl, by rw [endBit_bitcnt, hb]; rfl, rfl⟩
  case check =>
    obtain ⟨u, hu, hi⟩ := exec_check_phase s
    cases next_unique h ((tick_check ht hp).trans hu)
    exact hi

end Sys2Proof.Machine

/-! ### 43_check_convert.md: the checksum, the two conversions, the branches of `CHECK`, the cached `Reading` -/

namespace Sys2Proof.Machine

/-! ### The checksum (43_check_convert.md R141) -/

theorem checksumOk_eq_true (f : Frame) : checksumOk f = true ↔
    ((byte0 f).toNat + (byte1 f).toNat + (byte2 f).toNat + (byte3 f).toNat) % 256 = (byte4 f).toNat := by
  simp [checksumOk]

/-- In a frame that passes, every byte is determined by the other four: two frames that pass and differ in at most one
byte (`k` counts bytes from the low end) are the same. -/
theorem eq_of_checksumOk {f g : Frame} (k : Nat) (hf : checksumOk f = true) (hg : checksumOk g = true)
    (h : ∀ j, j ≠ k → f.extractLsb' (8 * j) 8 = g.extractLsb' (8 * j) 8) : f = g := by
  rw [checksumOk_eq_true] at hf hg
  have h0 : k ≠ 4 → (byte0 f).toNat = (byte0 g).toNat := fun hk => congrArg BitVec.toNat (h 4 hk.symm)
  have h1 : k ≠ 3 → (byte1 f).toNat = (byte1 g).toNat := fun hk => congrArg BitVec.toNat (h 3 hk.symm)
  have h2 : k ≠ 2 → (byte2 f).toNat = (byte2 g).toNat := fun hk => congrArg BitVec.toNat (h 2 hk.symm)
  have h3 : k ≠ 1 → (byte3 f).toNat = (byte3 g).toNat := fun hk => congrArg BitVec.toNat (h 1 hk.symm)
  have h4 : k ≠ 0 → (byte4 f).toNat = (byte4 g).toNat := fun hk => congrArg BitVec.toNat (h 0 hk.symm)
  have e0 : byte0 f = byte0 g := BitVec.eq_of_toNat_eq (by omega)
  have e1 : byte1 f = byte1 g := BitVec.eq_of_toNat_eq (by omega)
  have e2 : byte2 f = byte2 g := BitVec.eq_of_toNat_eq (by omega)
  have e3 : byte3 f = byte3 g := BitVec.eq_of_toNat_eq (by omega)
  have e4 : byte4 f = byte4 g := BitVec.eq_of_toNat_eq (by omega)
  rw [frame_eq_bytes f, frame_eq_bytes g, e0, e1, e2, e3, e4]

/-- A wrong bit leaves the bytes it does not lie in. -/
theorem byteSlice_flipBit (f : Frame) {n j : Nat} (hj : j ≠ n / 8) :
    (f ^^^ BitVec.twoPow 40 n).extractLsb' (8 * j) 8 = f.extractLsb' (8 * j) 8 := by
  refine BitVec.eq_of_getLsbD_eq fun i hi => ?_
  have hbit : n ≠ 8 * j + i := by omega
  simp [BitVec.getLsbD_extractLsb', BitVec.getLsbD_twoPow, hbit]

theorem flipBit_ne (f : Frame) {n : Nat} (hn : n < 40) : f ^^^ BitVec.twoPow 40 n ≠ f := fun h => by
  have hbit := congrArg (BitVec.getLsbD · n) h
  simp [hn] at hbit

/-- Corner (d): any single wrong bit is detected. -/
theorem checksumOk_flipBit {f : Frame} {n : Nat} (hn : n < 40) (hf : checksumOk f = true) :
    checksumOk (f ^^^ BitVec.twoPow 40 n) = false :=
  Bool.eq_false_iff.2 fun hg => flipBit_ne f hn (eq_of_checksumOk (n / 8) hg hf fun _ => byteSlice_flipBit f)

/-- Settles O25: the check is the rule's sum over the frame's bytes, and a wrong bit lies in one byte, which the other
four determine. -/
theorem checksumComparesTheLowEightBits : Obligations.ChecksumComparesTheLowEightBits := by
  refine ⟨fun f => ?_, by decide, by decide, by decide, fun f n => checksumOk_flipBit, by decide, by decide⟩
  rw [checksumOk_eq_true, byte0_toNat, byte1_toNat, byte2_toNat, byte3_toNat, byte4_toNat]

/-! ### The conversions (43_check_convert.md R143, R144) -/

/-- A byte below other bits, as a number. -/
theorem append_byte_toNat {w : Nat} (x : BitVec w) (y : Byte) : (x ++ y).toNat = x.toNat * 256 + y.toNat := by
  rw [BitVec.toNat_append, ← Nat.shiftLeft_add_eq_or_of_lt y.isLt, Nat.shiftLeft_eq]

/-- The sign bit of a byte. -/
theorem byte_sign (b : Byte) : b.getLsbD 7 = decide (128 ≤ b.toNat) :=
  (BitVec.msb_eq_getLsbD_last b).symm.trans (BitVec.msb_eq_decide b)

/-- A byte without its sign bit. -/
theorem byte_low7_toNat (b : Byte) : (b.extractLsb' 0 7).toNat = b.toNat % 128 := by
  simp

/-- A magnitude of 15 bits, signed by a flag, is the two's complement number it stands for: nothing overflows (R151). -/
theorem signedTenths_toInt (negative : Bool) {mag : Tenths} (h : mag.toNat < 2 ^ 15) :
    (signedTenths negative mag).toInt = if negative then -(mag.toNat : Int) else mag.toNat := by
  have hmsb : mag.msb = false := by
    rw [BitVec.msb_eq_decide]
    exact decide_eq_false (Nat.not_le.2 h)
  cases negative with
  | false => exact BitVec.toInt_eq_toNat_of_msb hmsb
  | true =>
    have hneg : signedTenths true mag = -mag := BitVec.zero_sub mag
    rw [hneg, BitVec.toInt_neg_eq_of_msb hmsb, BitVec.toInt_eq_toNat_of_msb hmsb, if_pos rfl]

theorem conv22_h_toNat (f : Frame) : (conv22 f).h.toNat = (byte0 f).toNat * 256 + (byte1 f).toNat :=
  append_byte_toNat (byte0 f) (byte1 f)

/-- The DHT22 temperature: the sign is bit 7 of byte 2, the magnitude the other 15 bits of bytes 2 and 3. -/
theorem conv22_t_toInt (f : Frame) : (conv22 f).t.toInt =
    if 128 ≤ (byte2 f).toNat then -((byte2 f).toNat % 128 * 256 + (byte3 f).toNat : Int)
    else ((byte2 f).toNat % 128 * 256 + (byte3 f).toNat : Int) := by
  have hmag : (((byte2 f).extractLsb' 0 7 ++ byte3 f).setWidth 16).toNat =
      (byte2 f).toNat % 128 * 256 + (byte3 f).toNat := by
    rw [BitVec.toNat_setWidth_of_le (by decide), append_byte_toNat, byte_low7_toNat]
  rw [conv22, signedTenths_toInt _ (by omega), hmag, byte_sign]
  simp

/-- Settles O26: humidity is two bytes side by side, temperature sign and magnitude. -/
theorem dht22ScalingIsSignAndMagnitude : Obligations.Dht22ScalingIsSignAndMagnitude := by
  refine ⟨fun f => ⟨conv22_h_toNat f, fun h => ?_, fun h => ?_⟩, by decide, by decide⟩ <;>
    rw [conv22_t_toInt] <;> omega

theorem tenths11_eq (c : Cfg) (f : Frame) :
    tenths11 c f = if c.dht11Tenths = true then (byte3 f).toNat % 128 else 0 := by
  rw [tenths11, byte_low7_toNat]

theorem conv11_h_toNat (c : Cfg) (f : Frame) : (conv11 c f).h.toNat = (byte0 f).toNat * 10 := by
  rw [conv11, BitVec.toNat_ofNat, Nat.mod_eq_of_lt (by omega)]

/-- The DHT11 temperature: the sign is bit 7 of byte 3, the magnitude byte 2 in whole degrees and the tenths. -/
theorem conv11_t_toInt (c : Cfg) (f : Frame) : (conv11 c f).t.toInt =
    if 128 ≤ (byte3 f).toNat then -((byte2 f).toNat * 10 + tenths11 c f : Int)
    else ((byte2 f).toNat * 10 + tenths11 c f : Int) := by
  have hlt : (byte2 f).toNat * 10 + tenths11 c f < 2 ^ 15 := by
    rw [tenths11_eq]
    split_ifs <;> omega
  have hmag : (BitVec.ofNat 16 ((byte2 f).toNat * 10 + tenths11 c f)).toNat = (byte2 f).toNat * 10 + tenths11 c f :=
    Nat.mod_eq_of_lt (by omega)
  rw [conv11, signedTenths_toInt _ (hmag.trans_lt hlt), hmag, byte_sign]
  simp

/-- Settles O27: humidity is ten times byte 0, temperature sign and magnitude with the tenths of the parameter, the only
one an example needs to know. -/
theorem dht11ScalingAddsTenths : Obligations.Dht11ScalingAddsTenths := by
  refine ⟨fun c f => ⟨conv11_h_toNat c f, _, tenths11_eq c f, fun h => ?pos, fun h => ?neg⟩, fun c => ?whole,
    fun c h => ?tenths, fun c h => ?noTenths⟩
  case pos => rw [conv11_t_toInt, if_neg (by omega)]
  case neg => rw [conv11_t_toInt, if_pos h]
  case whole =>
    rw [conv11, tenths11]
    cases c.dht11Tenths <;> decide
  case tenths | noTenths =>
    rw [conv11, tenths11, h]
    decide

/-! ### The plausibility tests (43_check_convert.md R147, R148) -/

theorem plausible22_eq_true (c : Cfg) (r : Reading) : plausible22 c r = true ↔
    r.h.toNat ≤ c.hMax ∧ c.tMin22 ≤ r.t.toInt ∧ r.t.toInt ≤ c.tMax22 := by
  simp [plausible22, and_assoc]

theorem plausible11_eq_true (c : Cfg) (r : Reading) : plausible11 c r = true ↔
    r.h.toNat ≤ c.hMax ∧ c.tMin11 ≤ r.t.toInt ∧ r.t.toInt ≤ c.tMax11 := by
  simp [plausible11, and_assoc]

/-! ### The branches of `CHECK` (43_check_convert.md R140, R145, R149) -/

theorem exec_check_badChecksum {s : State} (hc : checksumOk s.sr = false) :
    exec .check s = .next (raiseError .checksumError s) := by
  simp [exec, execCheck, hc]

/-- A fixed model commits its own conversion, plausible or not. -/
theorem exec_check_dht22 {s : State} (hc : checksumOk s.sr = true) (hm : s.model = .dht22Family) :
    exec .check s = .next (commit (conv22 s.sr) .dht22Family s) := by
  simp [exec, execCheck, hc, hm]

theorem exec_check_dht11 {s : State} (hc : checksumOk s.sr = true) (hm : s.model = .dht11) :
    exec .check s = .next (commit (conv11 s.cfg s.sr) .dht11 s) := by
  simp [exec, execCheck, hc, hm]

theorem exec_check_autoDetect {s : State} (hc : checksumOk s.sr = true) (hm : s.model = .autoDetect) :
    exec .check s = .next (autoDetect s) := by
  simp [exec, execCheck, hc, hm]

theorem autoDetect_dht22 {s : State} (h22 : plausible22 s.cfg (conv22 s.sr) = true) :
    autoDetect s = commit (conv22 s.sr) .dht22Family s := if_pos h22

theorem autoDetect_dht11 {s : State} (h22 : plausible22 s.cfg (conv22 s.sr) = false)
    (h11 : plausible11 s.cfg (conv11 s.cfg s.sr) = true) : autoDetect s = commit (conv11 s.cfg s.sr) .dht11 s := by
  simp [autoDetect, h22, h11]

theorem autoDetect_neither {s : State} (h22 : plausible22 s.cfg (conv22 s.sr) = false)
    (h11 : plausible11 s.cfg (conv11 s.cfg s.sr) = false) : autoDetect s = raiseError .checksumError s := by
  simp [autoDetect, h22, h11]

/-- Settles O30: the two tests of the statement are `plausible22` and `plausible11`, and `autoDetect` asks them in this
order. -/
theorem autoDetectTriesDht22First : Obligations.AutoDetectTriesDht22First := by
  intro s hc hm p22 p11 hp22 hp11
  rw [← plausible22_eq_true] at hp22
  rw [← plausible11_eq_true] at hp11
  rw [hp22, hp11, Bool.not_eq_true, Bool.not_eq_true, exec_check_autoDetect hc hm]
  exact ⟨fun h22 => congrArg _ (autoDetect_dht22 h22), fun h22 h11 => congrArg _ (autoDetect_dht11 h22 h11),
    fun h22 h11 => congrArg _ (autoDetect_neither h22 h11)⟩

/-! ### The cached `Reading` (43_check_convert.md R142, R150) -/

/-- `t` caches the frame and the `Reading` that `s` does. -/
abbrev SameReading (s t : State) : Prop :=
  t.frame = s.frame ∧ t.hum = s.hum ∧ t.temp = s.temp ∧ t.valid = s.valid

/-- A tick keeps the cached `Reading` in every phase but `CHECK`. -/
theorem tick_sameReading {s : State} (h : ¬ (s.phase = .check ∧ s.port.tickEn = true)) :
    ∃ t, tick s = .next t ∧ SameReading s t := by
  rcases tick_cases s with ⟨-, ht⟩ | ⟨-, -, -, ht⟩ | ⟨-, -, -, ht⟩ | ⟨-, l, b, -, -, -, ht⟩ |
    ⟨-, l, b, -, -, -, ht⟩ | ⟨-, l, b, p, -, -, -, ht⟩ | ⟨-, -, -, ht⟩ | ⟨htick, hp, -⟩
  case inr.inr.inr.inr.inr.inr.inr => exact absurd ⟨hp, htick⟩ h
  all_goals exact ⟨_, ht, rfl, rfl, rfl, rfl⟩

/-- No bus access brings an idle block to `CHECK`. -/
theorem busAccess_idle_phase {s : State} (hr : s.port.rst = false) (hp : s.phase = .idle) :
    ∃ t, busAccess s = .next t ∧ t.phase ≠ .check := by
  rcases busAccess_cases s hr with hb | ⟨-, k, -, hb⟩ | ⟨-, -, -, hb⟩ | ⟨-, -, -, hb⟩ <;>
    exact ⟨_, hb, by simp [hp]⟩

/-- Every edge without reset keeps the cached `Reading`, if it is no tick of `CHECK`. -/
theorem step_sameReading {s : State} {e : Edge} {later : List Edge} (h : s.pending = e :: later) (hr : e.rst = false)
    (hn : ¬ (s.phase = .check ∧ e.tickEn = true)) : ∃ t, step s = .next t ∧ SameReading s t := by
  by_cases hp : s.phase = .idle
  · obtain ⟨u, hu, hf, hh, ht, hv, -⟩ := busAccess_frame (present e later s) hr
    obtain ⟨w, hw, hphase⟩ := busAccess_idle_phase (s := present e later s) hr hp
    cases next_unique hw hu
    obtain ⟨t, htick, hf', hh', ht', hv'⟩ := tick_sameReading (s := u) fun ⟨hc, _⟩ => hphase hc
    exact ⟨t, by rw [step_run h hr, hu, andThen_next, htick],
      hf'.trans hf, hh'.trans hh, ht'.trans ht, hv'.trans hv⟩
  · rw [step_busy h hr hp]
    exact tick_sameReading hn

/-- At a tick of `CHECK` the edge does what `CHECK` does. -/
theorem step_check {s : State} {e : Edge} {later : List Edge} (h : s.pending = e :: later) (hr : e.rst = false)
    (hp : s.phase = .check) (ht : e.tickEn = true) : step s = exec .check (present e later s) := by
  rw [step_busy h hr (by simp [hp])]
  exact tick_check ht hp

/-- `CHECK` keeps the cached `Reading`, or commits the frame it has checked. -/
theorem exec_check_caches (s : State) : ∃ t, exec .check s = .next t ∧
    (SameReading s t ∨
      (checksumOk s.sr = true ∧ t.frame = s.sr ∧ t.valid = true ∧ t.rstat = .none ∧ t.phase = .idle)) := by
  rcases exec_check_cases s with ⟨-, h⟩ | ⟨hc, -, h⟩ | ⟨hc, -, h⟩
  · exact ⟨_, h, .inl ⟨rfl, rfl, rfl, rfl⟩⟩
  · exact ⟨_, h, .inr ⟨hc, rfl, rfl, rfl, rfl⟩⟩
  · exact ⟨_, h, .inr ⟨hc, rfl, rfl, rfl, rfl⟩⟩

/-- Where nothing of the cached `Reading` changed there is no change to explain. -/
theorem SameReading.not_changed {s t : State} (h : SameReading s t) :
    ¬ (t.frame ≠ s.frame ∨ t.hum ≠ s.hum ∨ t.temp ≠ s.temp ∨ t.valid ≠ s.valid) := by
  simpa [SameReading, not_or] using h

/-- Settles O34: an edge that is no tick of `CHECK` keeps the cached `Reading`, and `CHECK` replaces it only by that of
the frame it has checked. -/
theorem onlyCheckedFramesAreCached : Obligations.OnlyCheckedFramesAreCached := by
  intro s e later h hr
  by_cases hc : s.phase = .check ∧ e.tickEn = true
  · obtain ⟨hp, ht⟩ := hc
    obtain ⟨t, hexec, hsame | hcommit⟩ := exec_check_caches (present e later s)
    · exact ⟨t, (step_check h hr hp ht).trans hexec, fun hne => absurd hne hsame.not_changed⟩
    · exact ⟨t, (step_check h hr hp ht).trans hexec, fun _ => ⟨hp, ht, hcommit⟩⟩
  · obtain ⟨t, hstep, hsame⟩ := step_sameReading h hr hc
    exact ⟨t, hstep, fun hne => absurd hne hsame.not_changed⟩

/-- The outputs during `CHECK` (10_state.md R44). -/
theorem outputs_check {s : State} (h : s.phase = .check) :
    lineOe s = false ∧ linePu s = true ∧ crit s = false ∧ busy s = true := by
  simp [lineOe, linePu, crit, sampling, busy, h]

/-- Settles O28: each branch is the `commit` or the `raiseError` it names, and only a tick of `CHECK` writes the cached
`Reading`. -/
theorem checkCommitsOrRaises : Obligations.CheckCommitsOrRaises := by
  refine ⟨fun s => ⟨exec_check_badChecksum, fun r m hc hbranch => ?commits, fun hc hm h22 h11 => ?neither,
    outputs_check⟩, fun s e later => step_sameReading⟩
  case commits =>
    rcases hbranch with ⟨hm, rfl, rfl⟩ | ⟨hm, rfl, rfl⟩ | ⟨hm, h22, rfl, rfl⟩ | ⟨hm, h22, h11, rfl, rfl⟩
    · exact exec_check_dht11 hc hm
    · exact exec_check_dht22 hc hm
    · rw [exec_check_autoDetect hc hm, autoDetect_dht22 h22]
      rfl
    · rw [exec_check_autoDetect hc hm, autoDetect_dht11 h22 h11]
      rfl
  case neither =>
    rw [exec_check_autoDetect hc hm, autoDetect_neither h22 h11]
    rfl

/-- Settles O29: the branches of the fixed models test the checksum alone. -/
theorem fixedModelsCommitEveryValidFrame : Obligations.FixedModelsCommitEveryValidFrame :=
  fun _ hc => ⟨exec_check_dht22 hc, exec_check_dht11 hc⟩

end Sys2Proof.Machine

/-! ### 60_exceptions.md: how a transaction ends -/

namespace Sys2Proof.Machine

/-- The cause of `Timeout`: a wait finds its level still there at its bound (60_exceptions.md R161). -/
abbrev TimesOut (s : State) : Prop :=
  ∃ b, waitsFor s.cfg s.phase = some (s.port.lineIn, b) ∧ s.cnt.toNat = b

/-- The causes of `ChecksumError` at a `CHECK`: a bad checksum, or an auto-detect in which neither scaling is plausible
(60_exceptions.md R162). -/
abbrev CheckFails (s : State) : Prop :=
  checksumOk s.sr = false ∨ (s.model = .autoDetect ∧
    plausible22 s.cfg (conv22 s.sr) = false ∧ plausible11 s.cfg (conv11 s.cfg s.sr) = false)

theorem tick_of_timesOut {s : State} (ht : s.port.tickEn = true) (h : TimesOut s) :
    tick s = .next (raiseError .timeout s) := by
  obtain ⟨b, hw, hb⟩ := h
  exact tick_timeout ht hw rfl hb

theorem exec_check_of_checkFails {s : State} (h : CheckFails s) :
    exec .check s = .next (raiseError .checksumError s) := by
  cases hc : checksumOk s.sr with
  | false => exact exec_check_badChecksum hc
  | true =>
    obtain ⟨hm, h22, h11⟩ := h.resolve_left (by simp [hc])
    rw [exec_check_autoDetect hc hm, autoDetect_neither h22 h11]

/-- A `CHECK` that raises no error commits the frame it has checked. -/
theorem exec_check_commits {s : State} (h : ¬ CheckFails s) : ∃ t, exec .check s = .next t ∧
    checksumOk s.sr = true ∧ t.rstat = .none ∧ t.valid = true ∧ t.frame = s.sr := by
  rcases exec_check_cases s with ⟨hf, -⟩ | ⟨hc, -, hx⟩ | ⟨hc, -, hx⟩
  · exact absurd hf h
  all_goals exact ⟨_, hx, hc, rfl, rfl, rfl⟩

/-- A tick takes a busy block to `IDLE` only by one of the two errors or out of `CHECK`. -/
theorem tick_becomes_idle {s t : State} (hp : s.phase ≠ .idle) (ht : s.port.tickEn = true) (h : tick s = .next t)
    (hi : t.phase = .idle) : TimesOut s ∨ s.phase = .check := by
  rcases tick_cases s with ⟨hn | hn, -⟩ | ⟨-, -, -, hx⟩ | ⟨-, -, -, hx⟩ | ⟨-, l, b, hw, hl, hb, -⟩ |
    ⟨-, l, b, -, -, -, hx⟩ | ⟨-, l, b, q, -, hq, -, hx⟩ | ⟨-, -, -, hx⟩ | ⟨-, hc, -⟩
  · simp [ht] at hn
  · exact absurd hn hp
  · cases next_unique h hx
    simp at hi
  · cases next_unique h hx
    exact absurd hi hp
  · exact .inl ⟨b, hl ▸ hw, hb⟩
  · cases next_unique h hx
    exact absurd hi hp
  · cases next_unique h hx
    exact absurd hi (afterWait_ne hq).2
  · cases next_unique h hx
    rw [endBit_phase] at hi
    split at hi <;> cases hi
  · exact .inr hc

/-- Settles O31: each cause raises its error, a busy block becomes idle only by a `Timeout` or out of `CHECK`, and a
`CHECK` that does not fail commits. -/
theorem transactionsEndWithTheirCode : Obligations.TransactionsEndWithTheirCode := by
  intro s hp ht timesOut badCheck htime hbad
  obtain ⟨t, h⟩ := tick_next s
  refine ⟨t, h, fun hto => ?timeout, fun hb => ?checksum, fun hi => ?ends, fun hi => ?outputs⟩
  case timeout => exact next_unique h (tick_of_timesOut ht (htime.1 hto))
  case checksum =>
    obtain ⟨hc, hf⟩ := hbad.1 hb
    exact next_unique h ((tick_check ht hc).trans (exec_check_of_checkFails hf))
  case ends =>
    rcases tick_becomes_idle hp ht h hi with hto | hc
    · exact .inl (htime.2 hto)
    · by_cases hf : CheckFails s
      · exact .inr (.inl (hbad.2 ⟨hc, hf⟩))
      · obtain ⟨u, hx, hcommit⟩ := exec_check_commits hf
        cases next_unique h ((tick_check ht hc).trans hx)
        exact .inr (.inr ⟨hc, hcommit⟩)
  case outputs =>
    obtain ⟨hoe, hpu, hcrit, hbusy⟩ := outputs_idle hi
    exact ⟨hbusy, hcrit, hoe, hpu⟩

end Sys2Proof.Machine

/-! ### 30_encoding.md: decode and encode -/

namespace Sys2Proof.Machine

/-- The operand of a `SETUP` stands where `OP` and `ARG` are read from (30_encoding.md R70, R72). -/
theorem fields_of_setupWord (m : BitVec 2) :
    opField (m.setWidth 32 <<< 4 ||| 0x00000001) = 1 ∧ argField (m.setWidth 32 <<< 4 ||| 0x00000001) = m := by
  revert m
  decide

/-- A `SETUP` decodes back from its code. -/
theorem decode_setupWord (m : BitVec 2) : decode (encode (.setup m)) = .ok (.setup m) := by
  obtain ⟨hop, harg⟩ := fields_of_setupWord m
  exact (decode_of_op_setup hop).trans (by rw [harg])

theorem decode_encode (i : Instr) : decode (encode i) = .ok i := by
  cases i with
  | setup m => exact decode_setupWord m
  | nop | read | idle | wake | resp | ackl | ackh | bitl | bith | check => rfl

theorem encode_decodePhase (p : BitVec 3) : encode (decodePhase p) = .phase p := by
  revert p
  decide

/-- The bits of a word under the mask of a whole `SETUP`: `ARG` above `OP`. -/
theorem and_setupMask_toNat (w : Word) :
    (w &&& 0x0000003F).toNat = 16 * (argField w).toNat + (opField w).toNat := by
  have hmask : (w &&& 0x0000003F).toNat = w.toNat % 64 := by
    rw [BitVec.toNat_and]
    exact Nat.and_two_pow_sub_one_eq_mod w.toNat 6
  have hop : (opField w).toNat = w.toNat % 16 := by simp [opField]
  rw [hmask, argField_toNat, hop]
  omega

/-- A word is determined under the mask of a whole `SETUP` by its two fields. -/
theorem and_setupMask_eq {v w : Word} (hop : opField v = opField w) (harg : argField v = argField w) :
    v &&& 0x0000003F = w &&& 0x0000003F :=
  BitVec.eq_of_toNat_eq (by rw [and_setupMask_toNat, and_setupMask_toNat, hop, harg])

/-- A word is determined under the mask of `NOP` and `READ` by `OP`. -/
theorem and_opMask_eq {v w : Word} (hop : opField v = opField w) : v &&& 0x0000000F = w &&& 0x0000000F :=
  BitVec.eq_of_toNat_eq (by rw [and_opMask_toNat, and_opMask_toNat, hop])

/-- A word that decodes to a command has the code of that command under its row's mask (30_encoding.md R71). -/
theorem encode_of_decode_command {w : Word} {i : Instr} (h : decode (.command w) = .ok i) :
    encode i = .command (w &&& decodedBits i) := by
  by_cases h0 : opField w = 0
  · rw [decode_of_op_nop h0] at h
    cases h
    exact congrArg _ (and_opMask_eq (v := 0x00000000) h0.symm)
  by_cases h1 : opField w = 1
  · rw [decode_of_op_setup h1] at h
    cases h
    obtain ⟨hop, harg⟩ := fields_of_setupWord (argField w)
    exact congrArg _ ((Laws.EncodesInRow.setup (argField w)).symm.trans (and_setupMask_eq (hop.trans h1.symm) harg))
  by_cases h2 : opField w = 2
  · rw [decode_of_op_read h2] at h
    cases h
    exact congrArg _ (and_opMask_eq (v := 0x00000002) h2.symm)
  · rw [decode_of_op_reserved (by bv_omega)] at h
    cases h

/-- Every word with a command's code under its row's mask decodes to that command. -/
theorem decode_command_of_encode {w : Word} {i : Instr} (h : encode i = .command (w &&& decodedBits i)) :
    decode (.command w) = .ok i := by
  cases i with
  | nop => exact decode_of_op_nop (opField_of_and_opMask (v := 0x00000000) (Code.command.inj h).symm)
  | setup m =>
    obtain ⟨hop, harg⟩ := fields_and_setupMask w
    exact (decode_command_congr hop.symm fun _ => harg.symm).trans (h ▸ decode_encode (.setup m))
  | read => exact decode_of_op_read (opField_of_and_opMask (v := 0x00000002) (Code.command.inj h).symm)
  | idle | wake | resp | ackl | ackh | bitl | bith | check => cases h

/-- A phase code decodes to its micro-operation and to nothing else (30_encoding.md R74). -/
theorem decode_phase_eq_ok_iff (p : BitVec 3) (i : Instr) : decode (.phase p) = .ok i ↔ encode i = .phase p := by
  constructor
  · intro h
    cases h
    exact encode_decodePhase p
  · intro h
    exact h ▸ decode_encode i

/-- Settles O9: decoding undoes encoding, and each row's mask keeps the fields its decoding looks at. -/
theorem decodeAndEncodeAgree : Obligations.DecodeAndEncodeAgree :=
  ⟨decode_encode, fun _ _ => ⟨encode_of_decode_command, decode_command_of_encode⟩, decode_phase_eq_ok_iff⟩

/-- Settles O7: the words with a code are those `encode` writes, the others are told by their `OP`. -/
theorem specWordsDecode : Obligations.SpecWordsDecode :=
  ⟨decode_encode .nop, decode_encode (.setup 0), decode_encode (.setup 1), decode_encode (.setup 2),
    decode_encode .read, decode_of_op_read (by decide), decode_of_op_reserved (by decide), decode_encode .wake,
    decode_encode .bith, decode_encode .check⟩

end Sys2Proof.Machine

/-! ### All an edge can do, and what a run of edges keeps -/

namespace Sys2Proof.Machine

/-! ### The step -/

/-- All an edge without reset can do: in a busy block its tick, in an idle one nothing, a `SETUP`, a passthrough, or an
accepted `READ` with the first tick of its wake pulse. -/
theorem step_cases {s : State} {e : Edge} {later : List Edge} (h : s.pending = e :: later) (hr : e.rst = false) :
    (s.phase ≠ .idle ∧ step s = tick (present e later s)) ∨
    (s.phase = .idle ∧ step s = .next (present e later s)) ∨
    (s.phase = .idle ∧ ∃ k, Commands e (.setup (modelCode k)) ∧ step s = .next (setModel k (present e later s))) ∨
    (s.phase = .idle ∧ Commands e .read ∧ gateOpen (present e later s) = false ∧
      step s = .next (passRead (present e later s))) ∨
    (s.phase = .idle ∧ Commands e .read ∧ gateOpen (present e later s) = true ∧
      step s = tick (acceptRead (present e later s))) := by
  by_cases hp : s.phase = .idle
  · have hbus {u : State} (hb : busAccess (present e later s) = .next u) : step s = tick u := by
      rw [step_run h hr, hb, andThen_next]
    rcases busAccess_cases (present e later s) hr with hb | ⟨-, k, hc, hb⟩ | ⟨-, hc, hg, hb⟩ | ⟨-, hc, hg, hb⟩
    · exact .inr (.inl ⟨hp, (hbus hb).trans (tick_idle hp)⟩)
    · exact .inr (.inr (.inl ⟨hp, k, hc, (hbus hb).trans (tick_idle hp)⟩))
    · exact .inr (.inr (.inr (.inr ⟨hp, hc, hg, hbus hb⟩)))
    · exact .inr (.inr (.inr (.inl ⟨hp, hc, hg, (hbus hb).trans (tick_idle hp)⟩)))
  · exact .inl ⟨hp, step_busy h hr hp⟩

/-- Every edge answers a next state, keeps the parameters and uses itself up. -/
theorem step_consumes (s : State) : ∃ t, step s = .next t ∧ t.cfg = s.cfg ∧ t.pending = s.pending.tail := by
  cases hp : s.pending with
  | nil => exact ⟨s, step_nil hp, rfl, hp⟩
  | cons e later =>
    cases hr : e.rst with
    | true => exact ⟨_, step_reset hp hr, rfl, rfl⟩
    | false =>
      obtain ⟨u, hu, -, -, -, -, -, hcfg, -, hpend, -⟩ := busAccess_frame (present e later s) hr
      obtain ⟨t, ht, -, -, -, hcfg', -, hpend', -⟩ := tick_frame u
      exact ⟨t, by rw [step_run hp hr, hu, andThen_next, ht], hcfg'.trans hcfg, hpend'.trans hpend⟩

/-- Settles O33: the bus access and the tick keep the parameters and the edges to come, and so does reset. -/
theorem everyEdgeAnswersANextState : Obligations.EveryEdgeAnswersANextState := step_consumes

/-- An edge that writes no command has a bus access that does nothing. -/
theorem busAccess_noCommand {s : State} (hr : s.port.rst = false) (hno : ∀ i, ¬ Commands s.port i) :
    busAccess s = .next s := by
  rcases busAccess_cases s hr with hb | ⟨-, k, hc, -⟩ | ⟨-, hc, -⟩ | ⟨-, hc, -⟩
  · exact hb
  all_goals exact absurd hc (hno _)

/-- Settles O2: without a command the edge is its tick, and a tick is `exec` of its phase's micro-operation by
definition. -/
theorem stepRunsTheDecodedInstruction : Obligations.StepRunsTheDecodedInstruction := by
  refine ⟨fun s e later h hr => ⟨fun i => step_command h, fun hno => ?noCommand⟩,
    fun u ht => ⟨_, rfl, if_pos ht⟩, fun u => tick_none⟩
  exact step_eq_tick h hr (busAccess_noCommand (s := present e later s) hr hno)

/-! ### Runs -/

/-- What every edge that meets `Q` keeps, a run of such edges keeps. -/
theorem runEdges_keeps {P : State → Prop} {Q : Edge → Prop}
    (hstep : ∀ (s : State) (e : Edge) (later : List Edge), P s → Q e → s.pending = e :: later →
      ∃ t, step s = .next t ∧ P t)
    {s : State} {es later : List Edge} (hs : P s) (hes : ∀ e ∈ es, Q e) (h : s.pending = es ++ later) :
    ∃ t, runEdges es.length s = .next t ∧ P t ∧ t.pending = later := by
  induction es generalizing s with
  | nil => exact ⟨s, rfl, hs, h⟩
  | cons e es ih =>
    obtain ⟨he, hes⟩ := List.forall_mem_cons.1 hes
    obtain ⟨u, hu, hpu⟩ := hstep s e (es ++ later) hs he h
    obtain ⟨v, hv, -, hpend⟩ := step_consumes s
    cases next_unique hv hu
    obtain ⟨t, ht, hpt⟩ := ih hpu hes (by rw [hpend, h]; rfl)
    exact ⟨t, by rw [List.length_cons, runEdges_succ, hu, andThen_next, ht], hpt⟩

/-- Settles O37: a busy block takes no command, and without a tick its edge does nothing else. -/
theorem withoutTicksABusyBlockWaits : Obligations.WithoutTicksABusyBlockWaits := by
  intro s es later hp hes h
  refine runEdges_keeps (P := SameBlock s) ?_ rfl hes h
  rintro t e rest hsame ⟨hr, hte⟩ hpend
  have hbusy : t.phase ≠ .idle := hsame.phase_eq.trans_ne hp
  exact ⟨present e rest t, (step_busy hpend hr hbusy).trans (tick_none hte),
    hsame.trans (present_sameBlock e rest t)⟩

/-! ### The model (10_state.md R28) -/

/-- A tick leaves the model, or commits under auto-detect. -/
theorem tick_model (s : State) : ∃ t, tick s = .next t ∧ (t.model = s.model ∨
    (s.model = .autoDetect ∧ s.phase = .check ∧ s.port.tickEn = true ∧ checksumOk s.sr = true)) := by
  rcases tick_cases s with ⟨-, h⟩ | ⟨-, -, -, h⟩ | ⟨-, -, -, h⟩ | ⟨-, l, b, -, -, -, h⟩ | ⟨-, l, b, -, -, -, h⟩ |
    ⟨-, l, b, p, -, -, -, h⟩ | ⟨-, -, -, h⟩ | ⟨ht, hp, h⟩
  case inr.inr.inr.inr.inr.inr.inr =>
    rcases exec_check_cases s with ⟨-, hx⟩ | ⟨hc, hm | ⟨hm, -⟩, hx⟩ | ⟨hc, hm | ⟨hm, -⟩, hx⟩
    · exact ⟨_, h.trans hx, .inl rfl⟩
    · exact ⟨_, h.trans hx, .inl hm.symm⟩
    · exact ⟨_, h.trans hx, .inr ⟨hm, hp, ht, hc⟩⟩
    · exact ⟨_, h.trans hx, .inl hm.symm⟩
    · exact ⟨_, h.trans hx, .inr ⟨hm, hp, ht, hc⟩⟩
  all_goals exact ⟨_, h, .inl rfl⟩

/-- An edge without reset leaves the model, or is a `SETUP` in `IDLE`, or commits under auto-detect. -/
theorem step_model {s : State} {e : Edge} {later : List Edge} (h : s.pending = e :: later) (hr : e.rst = false) :
    ∃ t, step s = .next t ∧ (t.model = s.model ∨
      (s.phase = .idle ∧ ∃ k, Commands e (.setup (modelCode k))) ∨
      (s.model = .autoDetect ∧ s.phase = .check ∧ e.tickEn = true ∧ checksumOk s.sr = true)) := by
  rcases step_cases h hr with ⟨-, hs⟩ | ⟨-, hs⟩ | ⟨hp, k, hc, hs⟩ | ⟨-, -, -, hs⟩ | ⟨-, -, -, hs⟩
  · obtain ⟨t, ht, hm⟩ := tick_model (present e later s)
    exact ⟨t, hs.trans ht, hm.imp_right .inr⟩
  · exact ⟨_, hs, .inl rfl⟩
  · exact ⟨_, hs, .inr (.inl ⟨hp, k, hc⟩)⟩
  · exact ⟨_, hs, .inl rfl⟩
  · obtain ⟨t, ht, hm | ⟨-, hp, -⟩⟩ := tick_model (acceptRead (present e later s))
    · exact ⟨t, hs.trans ht, .inl hm⟩
    · simp at hp

/-- An edge that is no `SETUP` keeps a model that is not `AutoDetect`. -/
theorem step_keeps_model {m : SensorModel} (hm : m ≠ .autoDetect) (s : State) (e : Edge) (later : List Edge)
    (hs : s.model = m) (he : e.rst = false ∧ ∀ m, ¬ Commands e (.setup m)) (h : s.pending = e :: later) :
    ∃ t, step s = .next t ∧ t.model = m := by
  obtain ⟨hr, hno⟩ := he
  obtain ⟨t, ht, hmt | ⟨-, k, hc⟩ | ⟨hauto, -⟩⟩ := step_model h hr
  · exact ⟨t, ht, hmt.trans hs⟩
  · exact absurd hc (hno _)
  · exact absurd (hs.symm.trans hauto) hm

/-- Settles O36: what every edge of the run keeps, the run keeps. -/
theorem lockedModelStays : Obligations.LockedModelStays := by
  intro s es later hm hes h
  obtain ⟨t, ht, hmt, -⟩ := runEdges_keeps (step_keeps_model hm) rfl hes h
  exact ⟨t, ht, hmt⟩

end Sys2Proof.Machine

/-! ### 41_sampler.md section 2: one tick of a phase that only waits -/

namespace Sys2Proof.Machine

/-- The three outcomes of the wait template whose exit is the next phase, as whole states. -/
theorem exec_wait_outcomes {s : State} {i : Instr} {l : Bool} {b : Nat} {p : Phase}
    (h : exec i s = .next (waitPulse l b (nextPulse p) s)) :
    (s.port.lineIn = l → s.cnt.toNat = b → exec i s = .next { s with rstat := .timeout, phase := .idle }) ∧
    (s.port.lineIn = l → s.cnt.toNat ≠ b → exec i s = .next { s with cnt := s.cnt + 1 }) ∧
    (s.port.lineIn = !l → exec i s = .next { s with phase := p, cnt := 1 }) := by
  refine ⟨fun hl hb => ?timeout, fun hl hb => ?count, fun hl => ?exit⟩
  case timeout => rw [h, waitPulse_timeout hl hb]; rfl
  case count => rw [h, waitPulse_count hl hb]; rfl
  case exit => rw [h, waitPulse_exit (by simp [hl])]; rfl

/-- Settles O17: each of the four phases is the wait template with its own level, bound and next phase. -/
theorem waitPhasesCountTimeOutOrPass : Obligations.WaitPhasesCountTimeOutOrPass := by
  intro s
  obtain ⟨r1, r2, r3⟩ := exec_wait_outcomes (exec_resp s)
  obtain ⟨l1, l2, l3⟩ := exec_wait_outcomes (exec_ackl s)
  obtain ⟨h1, h2, h3⟩ := exec_wait_outcomes (exec_ackh s)
  obtain ⟨b1, b2, b3⟩ := exec_wait_outcomes (exec_bitl s)
  exact ⟨r1, r2, r3, l1, l2, l3, h1, h2, h3, b1, b2, b3⟩

end Sys2Proof.Machine

/-! ### 10_state.md section 8: the invariant -/

namespace Sys2Proof.Machine

/-! ### The counters -/

/-- The part of the invariant that speaks of the sequencer: `CNT` within what its phase counts to, `BITCNT` as its phase
has it. -/
structure CountersOk (s : State) : Prop where
  cfgOk : s.cfg.Ok
  bitcntLe : s.bitcnt.toNat ≤ 40
  wakeCnt : s.phase = .wake → s.cnt.toNat ≤ wakeTicks s.cfg s.model
  waitCnt : ∀ l b, waitsFor s.cfg s.phase = some (l, b) → s.cnt.toNat ≤ b ∧ (s.phase ≠ .resp → 1 ≤ s.cnt.toNat)
  beforeBits : s.phase = .wake ∨ s.phase = .resp ∨ s.phase = .ackl ∨ s.phase = .ackh → s.bitcnt = 0
  duringBits : s.phase = .bitl ∨ s.phase = .bith → s.bitcnt.toNat ≤ 39
  afterBits : s.phase = .check → s.bitcnt = 40

/-- The part of the invariant that speaks of the cached `Reading`. -/
structure CacheOk (s : State) : Prop where
  nothingCached : s.valid = false → s.frame = 0 ∧ s.hum = 0 ∧ s.temp = 0
  cachedChecked : s.valid = true → checksumOk s.frame = true
  cachedConverted : s.valid = true →
    (⟨s.hum, s.temp⟩ : Reading) = conv22 s.frame ∨ (⟨s.hum, s.temp⟩ : Reading) = conv11 s.cfg s.frame

/-- `SR` holds no more than the bits counted (42_frame.md R130 corner (a)). -/
abbrev SrFits (s : State) : Prop := s.sr.toNat < 2 ^ s.bitcnt.toNat

theorem inv_iff (s : State) : s.Inv ↔ CountersOk s ∧ SrFits s ∧ CacheOk s := by
  constructor
  · rintro ⟨hcfg, hle, hwake, hwait, hbefore, hduring, hafter, hsr, h0, hchecked, hconv⟩
    exact ⟨⟨hcfg, hle, hwake, hwait, hbefore, hduring, hafter⟩, hsr, ⟨h0, hchecked, hconv⟩⟩
  · rintro ⟨⟨hcfg, hle, hwake, hwait, hbefore, hduring, hafter⟩, hsr, ⟨h0, hchecked, hconv⟩⟩
    exact ⟨hcfg, hle, hwake, hwait, hbefore, hduring, hafter, hsr, h0, hchecked, hconv⟩

/-- The waiting phases, those before the first bit and those of a bit. -/
theorem waiting_cases {c : Cfg} {p : Phase} {l : Bool} {b : Nat} (h : waitsFor c p = some (l, b)) :
    (p = .resp ∨ p = .ackl ∨ p = .ackh) ∨ (p = .bitl ∨ p = .bith) := by
  cases p <;> simp [waitsFor] at h ⊢

/-! What each phase asks of the counters. -/

section Phases

variable {s : State}

theorem CountersOk.of_idle (hok : s.cfg.Ok) (hle : s.bitcnt.toNat ≤ 40) (hp : s.phase = .idle) : CountersOk s :=
  ⟨hok, hle, by simp [hp], by simp [hp, waitsFor], by simp [hp], by simp [hp], by simp [hp]⟩

theorem CountersOk.of_wake (hok : s.cfg.Ok) (hp : s.phase = .wake) (hc : s.cnt.toNat ≤ wakeTicks s.cfg s.model)
    (hb : s.bitcnt = 0) : CountersOk s :=
  ⟨hok, by simp [hb], fun _ => hc, by simp [hp, waitsFor], fun _ => hb, by simp [hp], by simp [hp]⟩

theorem CountersOk.of_check (hok : s.cfg.Ok) (hp : s.phase = .check) (hb : s.bitcnt = 40) : CountersOk s :=
  ⟨hok, by simp [hb], by simp [hp], by simp [hp, waitsFor], by simp [hp], by simp [hp], fun _ => hb⟩

theorem CountersOk.of_wait {l : Bool} {b : Nat} (hok : s.cfg.Ok) (hw : waitsFor s.cfg s.phase = some (l, b))
    (hc : s.cnt.toNat ≤ b) (hpos : s.phase ≠ .resp → 1 ≤ s.cnt.toNat)
    (hbefore : s.phase = .resp ∨ s.phase = .ackl ∨ s.phase = .ackh → s.bitcnt = 0)
    (hduring : s.phase = .bitl ∨ s.phase = .bith → s.bitcnt.toNat ≤ 39) : CountersOk s where
  cfgOk := hok
  bitcntLe := by
    rcases waiting_cases hw with hp | hp
    · simp [hbefore hp]
    · exact (hduring hp).trans (by decide)
  wakeCnt := fun hp => by simp [hp, waitsFor] at hw
  waitCnt := fun l' b' hw' => by
    cases hw.symm.trans hw'
    exact ⟨hc, hpos⟩
  beforeBits := fun hp => hbefore (hp.resolve_left fun hp => by simp [hp, waitsFor] at hw)
  duringBits := hduring
  afterBits := fun hp => by simp [hp, waitsFor] at hw

end Phases

/-- Where a phase counts, its count is within what it counts to. -/
theorem CountersOk.cnt_le {s : State} (h : CountersOk s) {level : Bool} {b : Nat}
    (hc : CountsTo s.cfg s.model s.phase level b) : s.cnt.toNat ≤ b := by
  rcases hc with ⟨hp, rfl⟩ | hw
  · exact h.wakeCnt hp
  · exact (h.waitCnt _ _ hw).1

/-! ### The ticks a transaction can still take (41_sampler.md R122) -/

/-- The most ticks until `IDLE` beside those the phase itself still counts, with this many bits received. -/
def ticksAfter (c : Cfg) (bits : Nat) : Phase → Nat
  | .idle => 0
  | .wake => (c.tmoResp + 1) + c.tmoAckl + c.tmoAckh + 40 * (c.tmoBitl + c.tmoBith) + 1
  | .resp => c.tmoAckl + c.tmoAckh + 40 * (c.tmoBitl + c.tmoBith) + 1
  | .ackl => c.tmoAckh + 40 * (c.tmoBitl + c.tmoBith) + 1
  | .ackh => 40 * (c.tmoBitl + c.tmoBith) + 1
  | .bitl => c.tmoBith + (39 - bits) * (c.tmoBitl + c.tmoBith) + 1
  | .bith => (39 - bits) * (c.tmoBitl + c.tmoBith) + 1
  | .check => 1

/-- The most ticks a phase itself still counts, its last one with them. -/
def ownTicks (s : State) : Nat :=
  match waitsFor s.cfg s.phase with
  | some (_, b) => b + 1 - s.cnt.toNat
  | none => if s.phase = .wake then wakeTicks s.cfg s.model + 1 - s.cnt.toNat else 0

/-- The most ticks until the block is idle. -/
def ticksLeft (s : State) : Nat := ownTicks s + ticksAfter s.cfg s.bitcnt.toNat s.phase

section TicksLeft

variable {s : State} {level : Bool} {b : Nat}

theorem ticksLeft_of_countsTo (h : CountsTo s.cfg s.model s.phase level b) :
    ticksLeft s = b + 1 - s.cnt.toNat + ticksAfter s.cfg s.bitcnt.toNat s.phase := by
  rcases h with ⟨hp, rfl⟩ | hw
  · simp [ticksLeft, ownTicks, hp, waitsFor]
  · simp [ticksLeft, ownTicks, hw]

@[simp] theorem ticksLeft_of_idle (h : s.phase = .idle) : ticksLeft s = 0 := by
  simp [ticksLeft, ownTicks, h, waitsFor, ticksAfter]

theorem ticksLeft_of_check (h : s.phase = .check) : ticksLeft s = 1 := by
  simp [ticksLeft, ownTicks, h, waitsFor, ticksAfter]

/-- A busy block has a tick to go. -/
theorem ticksLeft_pos (h : s.phase ≠ .idle) : 0 < ticksLeft s := by
  refine Nat.add_pos_right _ ?_
  cases hp : s.phase <;> simp [hp, ticksAfter] at h ⊢

end TicksLeft

/-- The phase after a wait waits too. -/
theorem waitsFor_afterWait (c : Cfg) {p q : Phase} (hq : afterWait p = some q) :
    ∃ l b, waitsFor c q = some (l, b) := by
  cases p with
  | idle | wake | bith | check => cases hq
  | resp | ackl | ackh | bitl =>
    cases hq
    exact ⟨_, _, rfl⟩

/-- The phases before the first bit are reached from one another. -/
theorem afterWait_beforeBits {p q : Phase} (hq : afterWait p = some q) (h : q = .resp ∨ q = .ackl ∨ q = .ackh) :
    p = .resp ∨ p = .ackl ∨ p = .ackh := by
  cases p <;> simp [afterWait] at hq <;> subst hq <;> simp at h ⊢

/-- A bit's pulses come after the acknowledge or after one another. -/
theorem afterWait_duringBits {p q : Phase} (hq : afterWait p = some q) (h : q = .bitl ∨ q = .bith) :
    p = .ackh ∨ p = .bitl := by
  cases p <;> simp [afterWait] at hq <;> subst hq <;> simp at h ⊢

/-- What comes after a phase that only waits is the next pulse at its bound, and what comes after that. -/
theorem ticksAfter_pass {c : Cfg} {p q : Phase} {l : Bool} {b n : Nat} (hq : afterWait p = some q)
    (hw : waitsFor c q = some (l, b)) (h0 : p = .ackh → n = 0) : ticksAfter c n p = b + ticksAfter c n q := by
  cases p with
  | idle | wake | bith | check => cases hq
  | resp | ackl | bitl =>
    cases hq
    cases hw
    simp only [ticksAfter]
    omega
  | ackh =>
    cases hq
    cases hw
    rw [h0 rfl]
    simp only [ticksAfter]
    omega

/-- What comes after a bit that is not the last is the low pulse of the next at its bound, and what comes after that. -/
theorem ticksAfter_endBit (c : Cfg) {n : Nat} (hn : n < 39) :
    ticksAfter c n .bith = c.tmoBitl + ticksAfter c (n + 1) .bitl := by
  obtain ⟨k, hk⟩ : ∃ k, 39 - n = k + 1 := ⟨38 - n, by omega⟩
  have hk' : 39 - (n + 1) = k := by omega
  simp only [ticksAfter, hk, hk', Nat.succ_mul]
  omega

/-! ### A tick of a busy block keeps the counters and leaves fewer ticks -/

/-- `t` comes later than `s` in a transaction. -/
abbrev Advances (s t : State) : Prop := CountersOk t ∧ ticksLeft t < ticksLeft s

section Advances

variable {s : State}

theorem countTick_advances (h : CountersOk s) {level : Bool} {b : Nat} (hc : CountsTo s.cfg s.model s.phase level b)
    (hne : s.cnt.toNat ≠ b) : Advances s (countTick s) := by
  have hlt : s.cnt.toNat < b := (h.cnt_le hc).lt_of_ne hne
  have hcnt := countTick_cnt_toNat (hc.lt h.cfgOk) hlt
  refine ⟨?_, ?_⟩
  · rcases hc with ⟨hp, rfl⟩ | hw
    · exact .of_wake h.cfgOk hp (hcnt.trans_le hlt) (h.beforeBits (.inl hp))
    · exact .of_wait h.cfgOk hw (hcnt.trans_le hlt) (fun _ => by omega) (fun hp => h.beforeBits (.inr hp)) h.duringBits
  · rw [ticksLeft_of_countsTo hc, ticksLeft_of_countsTo (s := countTick s) hc, hcnt]
    simp only [countTick_cfg, countTick_bitcnt, countTick_phase]
    omega

theorem releaseLine_advances (h : CountersOk s) (hp : s.phase = .wake)
    (hc : s.cnt.toNat = wakeTicks s.cfg s.model) : Advances s (releaseLine s) := by
  refine ⟨.of_wait h.cfgOk rfl (Nat.zero_le _) (absurd rfl) (fun _ => h.beforeBits (.inl hp)) (by simp), ?_⟩
  rw [ticksLeft_of_countsTo (s := s) (level := true) (.inl ⟨hp, rfl⟩),
    ticksLeft_of_countsTo (s := releaseLine s) (level := true) (.inr rfl), hc, hp]
  simp [ticksAfter]
  omega

theorem nextPulse_advances (h : CountersOk s) {l : Bool} {b : Nat} {q : Phase}
    (hw : waitsFor s.cfg s.phase = some (l, b)) (hq : afterWait s.phase = some q) : Advances s (nextPulse q s) := by
  obtain ⟨l', b', hw'⟩ := waitsFor_afterWait s.cfg hq
  have hpos : 1 ≤ b' := (waitsFor_bounds h.cfgOk hw').1
  refine ⟨.of_wait (s := nextPulse q s) h.cfgOk hw' hpos (fun _ => le_rfl)
    (fun hp => h.beforeBits (.inr (afterWait_beforeBits hq hp))) fun hp => ?_, ?_⟩
  · rcases afterWait_duringBits hq hp with hs | hs
    · simp [h.beforeBits (.inr (.inr (.inr hs)))]
    · exact h.duringBits (.inl hs)
  · have hle := (h.waitCnt _ _ hw).1
    rw [ticksLeft_of_countsTo (s := s) (.inr hw), ticksLeft_of_countsTo (s := nextPulse q s) (.inr hw'),
      ticksAfter_pass hq hw' fun hp => by simp [h.beforeBits (.inr (.inr (.inr hp)))]]
    simp
    omega

theorem endBit_advances (h : CountersOk s) (hp : s.phase = .bith) : Advances s (endBit s) := by
  have hle := (h.waitCnt _ _ (by rw [hp]; rfl)).1
  have hs : ticksLeft s = _ := ticksLeft_of_countsTo (level := true) (.inr (by rw [hp]; rfl))
  rw [Advances, hs, hp]
  by_cases hb : s.bitcnt = 39
  · have hend : (endBit s).phase = .check := if_pos hb
    refine ⟨.of_check h.cfgOk hend (by rw [endBit_bitcnt, hb]; rfl), ?_⟩
    rw [ticksLeft_of_check hend, ticksAfter]
    omega
  · have hend : (endBit s).phase = .bitl := if_neg hb
    have hlt : s.bitcnt.toNat < 39 := by
      have := h.duringBits (.inr hp)
      bv_omega
    have hcount : (endBit s).bitcnt.toNat = s.bitcnt.toNat + 1 := by
      rw [endBit_bitcnt]
      bv_omega
    have hw : waitsFor (endBit s).cfg (endBit s).phase = some (false, s.cfg.tmoBitl) := by rw [hend]; rfl
    refine ⟨.of_wait h.cfgOk hw (waitsFor_bounds h.cfgOk hw).1 (fun _ => le_rfl) (by rw [hend]; simp) fun _ => ?_, ?_⟩
    · omega
    · rw [ticksLeft_of_countsTo (.inr hw), hend, hcount, ticksAfter_endBit _ hlt]
      simp
      omega

/-- The end of a transaction. -/
theorem advances_of_idle (hbusy : s.phase ≠ .idle) (h : CountersOk s) {t : State} (hcfg : t.cfg = s.cfg)
    (hbits : t.bitcnt = s.bitcnt) (hp : t.phase = .idle) : Advances s t :=
  ⟨.of_idle (hcfg ▸ h.cfgOk) (hbits ▸ h.bitcntLe) hp, ticksLeft_of_idle hp ▸ ticksLeft_pos hbusy⟩

end Advances

/-- A tick does nothing or advances the transaction; with `tick_en` it advances every busy block. -/
theorem tick_advances {s : State} (h : CountersOk s) : ∃ t, tick s = .next t ∧
    (((s.port.tickEn = false ∨ s.phase = .idle) ∧ t = s) ∨ Advances s t) := by
  rcases tick_cases s with ⟨hn, ht⟩ | ⟨-, hp, hc, ht⟩ | ⟨-, hp, hc, ht⟩ | ⟨-, l, b, hw, -, -, ht⟩ |
    ⟨-, l, b, hw, -, hc, ht⟩ | ⟨-, l, b, q, hw, hq, -, ht⟩ | ⟨-, hp, -, ht⟩ | ⟨-, hp, ht⟩
  · exact ⟨s, ht, .inl ⟨hn, rfl⟩⟩
  · exact ⟨_, ht, .inr (releaseLine_advances h hp hc)⟩
  · exact ⟨_, ht, .inr (countTick_advances h (level := true) (.inl ⟨hp, rfl⟩) hc)⟩
  · exact ⟨_, ht, .inr (advances_of_idle (phase_ne_idle_of_waitsFor hw) h rfl rfl rfl)⟩
  · exact ⟨_, ht, .inr (countTick_advances h (.inr hw) hc)⟩
  · exact ⟨_, ht, .inr (nextPulse_advances h hw hq)⟩
  · exact ⟨_, ht, .inr (endBit_advances h hp)⟩
  · have hbusy : s.phase ≠ .idle := by simp [hp]
    rcases exec_check_cases s with ⟨-, hx⟩ | ⟨-, -, hx⟩ | ⟨-, -, hx⟩ <;>
      exact ⟨_, ht.trans hx, .inr (advances_of_idle hbusy h rfl rfl rfl)⟩

theorem tick_countersOk {s : State} (h : CountersOk s) : ∃ t, tick s = .next t ∧ CountersOk t := by
  obtain ⟨t, ht, ⟨-, rfl⟩ | hadv⟩ := tick_advances h
  · exact ⟨t, ht, h⟩
  · exact ⟨t, ht, hadv.1⟩

end Sys2Proof.Machine

/-! ### 10_state.md section 8: every edge keeps the invariant -/

namespace Sys2Proof.Machine

/-! ### The counters over an edge -/

/-- In `IDLE` the counters ask for the parameters and `BITCNT` alone. -/
theorem CountersOk.congr_idle {s t : State} (h : CountersOk s) (hcfg : t.cfg = s.cfg) (hbits : t.bitcnt = s.bitcnt)
    (hp : t.phase = .idle) : CountersOk t :=
  .of_idle (hcfg ▸ h.cfgOk) (hbits ▸ h.bitcntLe) hp

theorem present_countersOk {s : State} (h : CountersOk s) (e : Edge) (later : List Edge) :
    CountersOk (present e later s) :=
  ⟨h.cfgOk, h.bitcntLe, h.wakeCnt, h.waitCnt, h.beforeBits, h.duringBits, h.afterBits⟩

theorem step_countersOk {s : State} {e : Edge} {later : List Edge} (hok : CountersOk s) (h : s.pending = e :: later)
    (hr : e.rst = false) : ∃ t, step s = .next t ∧ CountersOk t := by
  rcases step_cases h hr with ⟨-, hs⟩ | ⟨-, hs⟩ | ⟨hp, k, -, hs⟩ | ⟨hp, -, -, hs⟩ | ⟨-, -, -, hs⟩
  · rw [hs]
    exact tick_countersOk (present_countersOk hok e later)
  · exact ⟨_, hs, present_countersOk hok e later⟩
  · exact ⟨_, hs, hok.congr_idle rfl rfl hp⟩
  · exact ⟨_, hs, hok.congr_idle rfl rfl hp⟩
  · rw [hs]
    exact tick_countersOk (.of_wake hok.cfgOk rfl (Nat.zero_le _) rfl)

/-! ### The shift register over an edge -/

/-- A tick shifts a bit in at the end of a pulse of `BITH`, and writes `SR` and `BITCNT` nowhere else. -/
theorem tick_shifts (s : State) : ∃ t, tick s = .next t ∧ ((t.sr = s.sr ∧ t.bitcnt = s.bitcnt) ∨
    (s.phase = .bith ∧ s.port.tickEn = true ∧ s.port.lineIn = false ∧
      t.sr = shiftIn s.sr (pulseBit s.cfg s.cnt) ∧ t.bitcnt = s.bitcnt + 1)) := by
  rcases tick_cases s with ⟨-, h⟩ | ⟨-, -, -, h⟩ | ⟨-, -, -, h⟩ | ⟨-, l, b, -, -, -, h⟩ | ⟨-, l, b, -, -, -, h⟩ |
    ⟨-, l, b, p, -, -, -, h⟩ | ⟨ht, hp, hl, h⟩ | ⟨-, -, h⟩
  case inr.inr.inr.inr.inr.inr.inl => exact ⟨_, h, .inr ⟨hp, ht, hl, rfl, rfl⟩⟩
  case inr.inr.inr.inr.inr.inr.inr =>
    rcases exec_check_cases s with ⟨-, hx⟩ | ⟨-, -, hx⟩ | ⟨-, -, hx⟩ <;> exact ⟨_, h.trans hx, .inl ⟨rfl, rfl⟩⟩
  all_goals exact ⟨_, h, .inl ⟨rfl, rfl⟩⟩

/-- One shift makes the register one bit longer. -/
theorem shiftIn_lt {f : Frame} {n : Nat} (h : f.toNat < 2 ^ n) (b : Bool) : (shiftIn f b).toNat < 2 ^ (n + 1) := by
  have hb : b.toNat ≤ 1 := b.toNat_le
  rw [shiftIn_toNat, Nat.pow_succ]
  exact (Nat.mod_le _ _).trans_lt (by omega)

theorem tick_srFits {s : State} (hok : CountersOk s) (h : SrFits s) : ∃ t, tick s = .next t ∧ SrFits t := by
  obtain ⟨t, ht, ⟨hsr, hbits⟩ | ⟨hp, -, -, hsr, hbits⟩⟩ := tick_shifts s
  · exact ⟨t, ht, by rwa [SrFits, hsr, hbits]⟩
  · have hle := hok.duringBits (.inr hp)
    have hcount : t.bitcnt.toNat = s.bitcnt.toNat + 1 := by
      rw [hbits]
      bv_omega
    exact ⟨t, ht, by rw [SrFits, hsr, hcount]; exact shiftIn_lt h _⟩

theorem step_srFits {s : State} {e : Edge} {later : List Edge} (hok : CountersOk s) (hfits : SrFits s)
    (h : s.pending = e :: later) (hr : e.rst = false) : ∃ t, step s = .next t ∧ SrFits t := by
  rcases step_cases h hr with ⟨-, hs⟩ | ⟨-, hs⟩ | ⟨-, k, -, hs⟩ | ⟨-, -, -, hs⟩ | ⟨-, -, -, hs⟩
  · rw [hs]
    exact tick_srFits (present_countersOk hok e later) hfits
  case inr.inr.inr.inr =>
    rw [hs]
    exact tick_srFits (.of_wake hok.cfgOk rfl (Nat.zero_le _) rfl) (show (0 : Frame).toNat < 2 ^ 0 by decide)
  all_goals exact ⟨_, hs, hfits⟩

/-! ### The cached `Reading` over an edge -/

theorem CacheOk.of_sameReading {s t : State} (h : CacheOk s) (hcfg : t.cfg = s.cfg) (hsame : SameReading s t) :
    CacheOk t := by
  obtain ⟨hf, hh, ht, hv⟩ := hsame
  exact ⟨by rw [hf, hh, ht, hv]; exact h.nothingCached, by rw [hf, hv]; exact h.cachedChecked,
    by rw [hcfg, hf, hh, ht, hv]; exact h.cachedConverted⟩

/-- A commit of a conversion of a checked frame. -/
theorem commit_cacheOk {s : State} {r : Reading} (m : SensorModel) (hc : checksumOk s.sr = true)
    (hr : r = conv22 s.sr ∨ r = conv11 s.cfg s.sr) : CacheOk (commit r m s) :=
  ⟨by simp, fun _ => hc, fun _ => hr⟩

theorem exec_check_cacheOk {s : State} (h : CacheOk s) : ∃ t, exec .check s = .next t ∧ CacheOk t := by
  rcases exec_check_cases s with ⟨-, hx⟩ | ⟨hc, -, hx⟩ | ⟨hc, -, hx⟩
  · exact ⟨_, hx, h.of_sameReading rfl ⟨rfl, rfl, rfl, rfl⟩⟩
  · exact ⟨_, hx, commit_cacheOk _ hc (.inl rfl)⟩
  · exact ⟨_, hx, commit_cacheOk _ hc (.inr rfl)⟩

theorem step_cacheOk {s : State} {e : Edge} {later : List Edge} (hok : CacheOk s) (h : s.pending = e :: later)
    (hr : e.rst = false) : ∃ t, step s = .next t ∧ CacheOk t := by
  by_cases hc : s.phase = .check ∧ e.tickEn = true
  · rw [step_check h hr hc.1 hc.2]
    exact exec_check_cacheOk (hok.of_sameReading rfl ⟨rfl, rfl, rfl, rfl⟩)
  · obtain ⟨t, ht, hsame⟩ := step_sameReading h hr hc
    obtain ⟨u, hu, hcfg, -⟩ := step_consumes s
    cases next_unique ht hu
    exact ⟨t, ht, hok.of_sameReading hcfg hsame⟩

/-! ### The invariant -/

/-- Reset establishes the invariant, whatever the state before. -/
theorem applyReset_inv {s : State} (hok : s.cfg.Ok) : (applyReset s).Inv :=
  (inv_iff _).2 ⟨.of_idle hok (by simp) rfl, by simp [SrFits], ⟨fun _ => ⟨rfl, rfl, rfl⟩, by simp, by simp⟩⟩

/-- An edge without reset keeps each of the three parts of the invariant. -/
theorem step_run_inv {s : State} {e : Edge} {later : List Edge} (hinv : s.Inv) (h : s.pending = e :: later)
    (hr : e.rst = false) : ∃ t, step s = .next t ∧ t.Inv := by
  obtain ⟨hcounters, hsr, hcache⟩ := (inv_iff s).1 hinv
  obtain ⟨t, ht, hcounters'⟩ := step_countersOk hcounters h hr
  obtain ⟨u, hu, hsr'⟩ := step_srFits hcounters hsr h hr
  obtain ⟨v, hv, hcache'⟩ := step_cacheOk hcache h hr
  cases next_unique hu ht
  cases next_unique hv ht
  exact ⟨t, ht, (inv_iff t).2 ⟨hcounters', hsr', hcache'⟩⟩

theorem step_inv {s : State} (hinv : s.Inv) : ∃ t, step s = .next t ∧ t.Inv := by
  cases h : s.pending with
  | nil => exact ⟨s, step_nil h, hinv⟩
  | cons e later =>
    cases hr : e.rst with
    | true => exact ⟨_, step_reset h hr, applyReset_inv (s := present e later s) hinv.cfgOk⟩
    | false => exact step_run_inv hinv h hr

/-- From `WAKE` to `BITH` no edge without reset writes the model. -/
theorem step_model_sampling {s : State} (hi : s.phase ≠ .idle) (hc : s.phase ≠ .check)
    (hr : ∀ e ∈ s.pending.head?, e.rst = false) : ∃ t, step s = .next t ∧ t.model = s.model := by
  cases h : s.pending with
  | nil => exact ⟨s, step_nil h, rfl⟩
  | cons e later =>
    obtain ⟨t, ht, hm | ⟨hp, -⟩ | ⟨-, hp, -⟩⟩ := step_model h (hr e (by simp [h]))
    · exact ⟨t, ht, hm⟩
    · exact absurd hp hi
    · exact absurd hp hc

/-- Settles O38: reset establishes the invariant and every other edge keeps its three parts, the counters, the shift
register and the cached `Reading`; the model is written only in `IDLE` and at `CHECK`. -/
theorem everyEdgeKeepsTheInvariant : Obligations.EveryEdgeKeepsTheInvariant := by
  intro s hinv
  obtain ⟨t, ht, hinv'⟩ := step_inv hinv
  refine ⟨t, ht, hinv', fun hi hc hr => ?_⟩
  obtain ⟨u, hu, hm⟩ := step_model_sampling hi hc hr
  cases next_unique hu ht
  exact hm

theorem cfg_default_ok : Cfg.default.Ok := by decide

/-- Settles O39: the reset state is what a reset edge leaves, so it has the invariant once its parameters do. -/
theorem resetStateMeetsTheInvariant : Obligations.ResetStateMeetsTheInvariant :=
  ⟨applyReset_reset ▸ applyReset_inv (s := State.reset) cfg_default_ok, rfl, cfg_default_ok⟩

end Sys2Proof.Machine

/-! ### 41_sampler.md section 3: the bound of a transaction -/

namespace Sys2Proof.Machine

/-- An edge with a tick advances every busy block, whatever the bus does. -/
theorem step_advances {s : State} {e : Edge} {later : List Edge} (hok : CountersOk s) (hp : s.phase ≠ .idle)
    (h : s.pending = e :: later) (he : e.rst = false ∧ e.tickEn = true) : ∃ t, step s = .next t ∧ Advances s t := by
  obtain ⟨hr, htick⟩ := he
  obtain ⟨t, ht, ⟨hn | hn, -⟩ | hadv⟩ := tick_advances (present_countersOk hok e later)
  · exact absurd (htick.symm.trans hn) (by decide)
  · exact absurd hn hp
  · exact ⟨t, (step_busy h hr hp).trans ht, hadv⟩

/-- A run of as many ticks as are left passes through `IDLE`. -/
theorem runEdges_ends {s : State} {es later : List Edge} (hok : CountersOk s) (hes : Ticking es)
    (h : s.pending = es ++ later) (hn : ticksLeft s ≤ es.length) :
    ∃ k t, k ≤ ticksLeft s ∧ runEdges k s = .next t ∧ t.phase = .idle := by
  induction es generalizing s with
  | nil =>
    have hp : s.phase = .idle := not_not.1 fun hp => (ticksLeft_pos hp).not_ge hn
    exact ⟨0, s, Nat.zero_le _, rfl, hp⟩
  | cons e es ih =>
    by_cases hp : s.phase = .idle
    · exact ⟨0, s, Nat.zero_le _, rfl, hp⟩
    obtain ⟨he, hes⟩ := List.forall_mem_cons.1 hes
    obtain ⟨u, hu, hoku, hlt⟩ := step_advances hok hp h he
    obtain ⟨v, hv, -, hpend⟩ := step_consumes s
    cases next_unique hv hu
    rw [List.length_cons] at hn
    obtain ⟨k, t, hk, ht, hi⟩ := ih hoku hes (by rw [hpend, h]; rfl) (by omega)
    exact ⟨k + 1, t, by omega, by rw [runEdges_succ, hu, andThen_next, ht], hi⟩

/-- In `WAKE` the ticks counted and the ticks left are the longest transaction. -/
theorem ticksLeft_of_wake {s : State} (hp : s.phase = .wake) (hle : s.cnt.toNat ≤ wakeTicks s.cfg s.model) :
    s.cnt.toNat + ticksLeft s = longestTransaction s.cfg s.model := by
  rw [ticksLeft_of_countsTo (level := true) (.inl ⟨hp, rfl⟩), hp]
  simp only [ticksAfter, longestTransaction]
  omega

/-- Settles O22: every tick of a busy block leaves fewer ticks, and in `WAKE` the ticks left are those of the bound that
are not counted yet. -/
theorem transactionEndsWithinItsBound : Obligations.TransactionEndsWithinItsBound := by
  refine ⟨fun s es later hok hp hle hbits hes hn h => ?bound, rfl, rfl, rfl⟩
  have hleft := ticksLeft_of_wake hp hle
  obtain ⟨k, t, hk, ht, hi⟩ := runEdges_ends (.of_wake hok hp hle hbits) hes h (by omega)
  exact ⟨k, t, by omega, ht, hi⟩

/-! ### Runs of ticks told by the samples of the line (41_sampler.md R121) -/

/-- Ticks with these samples of the line take a block like `s` to one like `t`, whatever the bus does meanwhile. -/
def SamplesLead (s : State) (samples : List Bool) (t : State) : Prop :=
  ∀ (es : List Edge) (s' : State) (later : List Edge), Ticking es → es.map (·.lineIn) = samples → SameBlock s s' →
    s'.pending = es ++ later →
    ∃ t', runEdges es.length s' = .next t' ∧ SameBlock t t' ∧ t'.pending = later

theorem samplesLead_nil (s : State) : SamplesLead s [] s := by
  intro es s' later hes hmap hs h
  obtain rfl := List.map_eq_nil_iff.1 hmap
  exact ⟨s', rfl, hs, h⟩

theorem SamplesLead.append {s t u : State} {xs ys : List Bool} (h : SamplesLead s xs t) (h' : SamplesLead t ys u) :
    SamplesLead s (xs ++ ys) u := by
  intro es s' later hes hmap hs hpend
  obtain ⟨es₁, es₂, rfl, hmap₁, hmap₂⟩ := List.map_eq_append_iff.1 hmap
  obtain ⟨hes₁, hes₂⟩ := List.forall_mem_append.1 hes
  obtain ⟨t', ht', hsame, hpend'⟩ := h es₁ s' (es₂ ++ later) hes₁ hmap₁ hs (by simpa using hpend)
  obtain ⟨u', hu', hu⟩ := h' es₂ t' later hes₂ hmap₂ hsame hpend'
  exact ⟨u', by rw [List.length_append, runEdges_add, ht', andThen_next, hu'], hu⟩

/-- One sample does what a tick does, where the tick does the same to every block like `s`. -/
theorem samplesLead_of_tick {s : State} {level : Bool} {f : State → State} (hp : s.phase ≠ .idle)
    (htick : ∀ u : State, SameBlock s u → u.port.tickEn = true → u.port.lineIn = level → tick u = .next (f u))
    (hf : ∀ u : State, SameBlock s u → SameBlock (f s) (f u))
    (hpend : ∀ u : State, (f u).pending = u.pending) : SamplesLead s [level] (f s) := by
  intro es s' later hes hmap hs h
  obtain ⟨e, rfl, hl⟩ := List.map_eq_singleton_iff.1 hmap
  obtain ⟨hr, hte⟩ := hes e (by simp)
  have hsame := hs.trans (present_sameBlock e later s')
  refine ⟨f (present e later s'), ?_, hf _ hsame, hpend _⟩
  rw [List.length_singleton, runEdges_one, step_busy h hr (hs.phase_eq.trans_ne hp)]
  exact htick _ hsame hte hl

/-- The sample at the other level ends a phase that only waits. -/
theorem samplesLead_nextPulse {s : State} {l : Bool} {b : Nat} {q : Phase}
    (hw : waitsFor s.cfg s.phase = some (l, b)) (hq : afterWait s.phase = some q) :
    SamplesLead s [!l] (nextPulse q s) := by
  refine samplesLead_of_tick (phase_ne_idle_of_waitsFor hw) (fun u hu hte hl => ?_)
    (fun u hu => congrArg (nextPulse q) hu) fun _ => rfl
  exact tick_pass hte (hu.cfg_eq ▸ hu.phase_eq ▸ hw) (hu.phase_eq ▸ hq) (by simp [hl])

/-- The low sample ends a bit. -/
theorem samplesLead_endBit {s : State} (hp : s.phase = .bith) : SamplesLead s [false] (endBit s) :=
  samplesLead_of_tick (by simp [hp]) (fun u hu hte hl => tick_endBit hte (hu.phase_eq.trans hp) hl)
    (fun u hu => congrArg endBit hu) fun _ => rfl

/-- Samples at the level a phase waits out are counted, within the bound. -/
theorem samplesLead_count {s : State} {l : Bool} {b n : Nat} (hok : s.cfg.Ok)
    (hw : waitsFor s.cfg s.phase = some (l, b)) (hn : s.cnt.toNat + n ≤ b) :
    SamplesLead s (List.replicate n l) { s with cnt := BitVec.ofNat 16 (s.cnt.toNat + n) } := by
  intro es s' later hes hmap hs h
  obtain ⟨hlen, hl⟩ := List.eq_replicate_iff.1 hmap
  rw [List.length_map] at hlen
  have hcnt : s'.cnt = s.cnt := by rw [hs]
  obtain ⟨t, ht, hsame, htn, hpend⟩ := runEdges_counts (s := s') (b := b) (hs.cfg_eq ▸ hok)
    (fun e he => .inr (by rw [hs.cfg_eq, hs.phase_eq, hl _ (List.mem_map_of_mem he)]; exact hw)) hes h
    (by rw [hcnt, hlen]; exact hn)
  have hlt : s.cnt.toNat + n < 2 ^ 16 := hn.trans_lt (waitsFor_bounds hok hw).2
  have htc : t.cnt = BitVec.ofNat 16 (s.cnt.toNat + n) :=
    BitVec.eq_of_toNat_eq (by rw [htn, hcnt, hlen, BitVec.toNat_ofNat, Nat.mod_eq_of_lt hlt])
  refine ⟨t, ht, ?_, hpend⟩
  rw [htc] at hsame
  exact SameBlock.trans (congrArg (fun x : State => { x with cnt := BitVec.ofNat 16 (s.cnt.toNat + n) }) hs) hsame

/-- A whole pulse within the bound of its phase: its first sample ends the phase before it, the others are counted. -/
theorem samplesLead_pulse {s : State} {l : Bool} {b b' n : Nat} {q : Phase} (hok : s.cfg.Ok)
    (hw : waitsFor s.cfg s.phase = some (!l, b)) (hq : afterWait s.phase = some q)
    (hw' : waitsFor s.cfg q = some (l, b')) (hpos : 1 ≤ n) (hn : n ≤ b') :
    SamplesLead s (List.replicate n l) { s with phase := q, cnt := BitVec.ofNat 16 n } := by
  obtain ⟨k, rfl⟩ : ∃ k, n = 1 + k := ⟨n - 1, by omega⟩
  have hfirst : SamplesLead s [l] (nextPulse q s) := by simpa using samplesLead_nextPulse hw hq
  have hrest := samplesLead_count (s := nextPulse q s) (n := k) hok hw' hn
  rw [Nat.add_comm, List.replicate_succ, Nat.add_comm]
  exact hfirst.append hrest

/-! ### The samples of the data bits (30_encoding.md R77, R78) -/

/-- The samples of a run of bits without the first, with the low sample that ends the last. -/
def bitTails : List (Nat × Nat) → List Bool
  | [] => []
  | (low, high) :: rest => List.replicate (low - 1) false ++ List.replicate high true ++ [false] ++ bitTails rest

theorem bitSamples_append_low {bits : List (Nat × Nat)} (h : ∀ p ∈ bits, 1 ≤ p.1) :
    bitSamples bits ++ [false] = false :: bitTails bits := by
  induction bits with
  | nil => rfl
  | cons p rest ih =>
    obtain ⟨hp, hrest⟩ := List.forall_mem_cons.1 h
    obtain ⟨k, hk⟩ : ∃ k, p.1 = k + 1 := ⟨p.1 - 1, by omega⟩
    rw [bitSamples, List.append_assoc, ih hrest, bitTails, hk]
    simp [List.replicate_succ]

theorem bitSamples_length (bits : List (Nat × Nat)) :
    (bitSamples bits).length = (bits.map fun p => p.1 + p.2).sum := by
  induction bits with
  | nil => rfl
  | cons p rest ih =>
    rw [bitSamples, List.length_append, List.length_append, List.length_replicate, List.length_replicate, ih,
      List.map_cons, List.sum_cons]

/-- One bit from its second sample on, up to the first sample after it. -/
theorem samplesLead_bit {s : State} {low high : Nat} (hok : s.cfg.Ok) (hp : s.phase = .bitl) (hc : s.cnt = 1)
    (hlow : 1 ≤ low ∧ low ≤ s.cfg.tmoBitl) (hhigh : 1 ≤ high ∧ high ≤ s.cfg.tmoBith) :
    SamplesLead s (List.replicate (low - 1) false ++ List.replicate high true ++ [false])
      (endBit { s with phase := .bith, cnt := BitVec.ofNat 16 high }) := by
  have hw : waitsFor s.cfg s.phase = some (false, s.cfg.tmoBitl) := by rw [hp]; rfl
  have hcount : s.cnt.toNat + (low - 1) ≤ s.cfg.tmoBitl := by
    have hone : s.cnt.toNat = 1 := by rw [hc]; rfl
    omega
  have hlowPulse := samplesLead_count hok hw hcount
  have hhighPulse := samplesLead_pulse (s := { s with cnt := BitVec.ofNat 16 (s.cnt.toNat + (low - 1)) }) (l := true)
    (q := .bith) hok hw (by rw [hp]; rfl) rfl hhigh.1 hhigh.2
  exact (hlowPulse.append hhighPulse).append (samplesLead_endBit rfl)

/-- The bit of a width that fits `CNT`. -/
theorem pulseBit_ofNat (c : Cfg) {n : Nat} (hn : n < 65536) : pulseBit c (BitVec.ofNat 16 n) = decide (c.tBit < n) := by
  rw [pulseBit, BitVec.toNat_ofNat, Nat.mod_eq_of_lt hn]

/-- The bits still to come, from the first low sample of the next on, are shifted in one after another; after the 40th
the block is in `CHECK`. -/
theorem samplesLead_bits {s : State} {bits : List (Nat × Nat)} (hok : s.cfg.Ok)
    (hp : s.phase = if s.bitcnt = 40 then .check else .bitl) (hc : s.cnt = 1)
    (hn : s.bitcnt.toNat + bits.length = 40)
    (hbits : ∀ p ∈ bits, 1 ≤ p.1 ∧ p.1 ≤ s.cfg.tmoBitl ∧ 1 ≤ p.2 ∧ p.2 ≤ s.cfg.tmoBith) :
    SamplesLead s (bitTails bits)
      { s with phase := .check, bitcnt := 40, cnt := 1,
               sr := (bits.map fun p => decide (s.cfg.tBit < p.2)).foldl shiftIn s.sr } := by
  induction bits generalizing s with
  | nil =>
    have h40 : s.bitcnt = 40 := BitVec.eq_of_toNat_eq hn
    rw [if_pos h40] at hp
    have hend : s = { s with phase := .check, bitcnt := 40, cnt := 1 } := by rw [← hp, ← hc, ← h40]
    exact hend ▸ samplesLead_nil s
  | cons p rest ih =>
    obtain ⟨⟨hl1, hl, hh1, hh⟩, hrest⟩ := List.forall_mem_cons.1 hbits
    rw [List.length_cons] at hn
    have hne : s.bitcnt ≠ 40 := fun h40 => by simp [h40] at hn
    have hnext : s.bitcnt = 39 ↔ s.bitcnt + 1 = 40 := ⟨fun h => by rw [h]; rfl, fun h => by bv_omega⟩
    have hhigh : p.2 < 65536 := hh.trans_lt (waitsFor_bounds (p := .bith) hok rfl).2
    have hbit := samplesLead_bit hok (hp.trans (if_neg hne)) hc ⟨hl1, hl⟩ ⟨hh1, hh⟩
    have hih := ih (s := endBit { s with phase := .bith, cnt := BitVec.ofNat 16 p.2 }) hok
      (if_congr hnext rfl rfl) rfl (by rw [endBit_bitcnt]; bv_omega) hrest
    rw [List.map_cons, List.foldl_cons, ← pulseBit_ofNat _ hhigh]
    exact hbit.append hih

/-! ### A whole transaction -/

/-- A waveform whose pulses keep their bounds takes the block from the release of the line to `CHECK`, with its bits in
`SR`. -/
theorem samplesLead_frame {s : State} {h0 al ah : Nat} {bits : List (Nat × Nat)} (hok : s.cfg.Ok)
    (hp : s.phase = .resp) (hc : s.cnt = 0) (hb : s.bitcnt = 0) (hh0 : h0 ≤ s.cfg.tmoResp)
    (hal : 1 ≤ al ∧ al ≤ s.cfg.tmoAckl) (hah : 1 ≤ ah ∧ ah ≤ s.cfg.tmoAckh) (hlen : bits.length = 40)
    (hbits : ∀ p ∈ bits, 1 ≤ p.1 ∧ p.1 ≤ s.cfg.tmoBitl ∧ 1 ≤ p.2 ∧ p.2 ≤ s.cfg.tmoBith) :
    SamplesLead s (frameSamples h0 al ah bits)
      { s with phase := .check, bitcnt := 40, cnt := 1,
               sr := (bits.map fun p => decide (s.cfg.tBit < p.2)).foldl shiftIn s.sr } := by
  have hw : waitsFor s.cfg s.phase = some (true, s.cfg.tmoResp) := by rw [hp]; rfl
  have hresp := samplesLead_count (n := h0) hok hw (by simpa [hc] using hh0)
  have hackl := samplesLead_pulse (s := { s with cnt := BitVec.ofNat 16 (s.cnt.toNat + h0) }) (l := false)
    (q := .ackl) hok hw (by rw [hp]; rfl) rfl hal.1 hal.2
  have hackh := samplesLead_pulse (s := { s with phase := .ackl, cnt := BitVec.ofNat 16 al }) (l := true)
    (q := .ackh) hok rfl rfl rfl hah.1 hah.2
  have hbitl := samplesLead_nextPulse (s := { s with phase := .ackh, cnt := BitVec.ofNat 16 ah }) (l := true)
    (q := .bitl) rfl rfl
  have hrest := samplesLead_bits (s := nextPulse .bitl { s with phase := .ackh, cnt := BitVec.ofNat 16 ah }) hok
    (by simp [hb]) rfl (by simpa [hb] using hlen) hbits
  have hsamples : frameSamples h0 al ah bits =
      List.replicate h0 true ++ List.replicate al false ++ List.replicate ah true ++ ([!true] ++ bitTails bits) := by
    rw [frameSamples, List.append_assoc _ (bitSamples bits), bitSamples_append_low fun p hp => (hbits p hp).1]
    rfl
  rw [hsamples]
  exact ((hresp.append hackl).append hackh).append (hbitl.append hrest)

theorem frameSamples_length (h0 al ah : Nat) (bits : List (Nat × Nat)) :
    (frameSamples h0 al ah bits).length = h0 + al + ah + (bits.map fun p => p.1 + p.2).sum + 1 := by
  simp only [frameSamples, List.length_append, List.length_replicate, bitSamples_length, List.length_singleton]

/-- Settles O23: the wake pulse, then the waveform pulse by pulse, then the tick of `CHECK`. -/
theorem goodPulsesGiveTheirFrame : Obligations.GoodPulsesGiveTheirFrame := by
  intro s wakeEs es later last h0 al ah bits hok hp hle hb hsr hwake hn hes hmap hlast hh0 hal1 hal hah1 hah hlen hbits
    hpend
  obtain ⟨hr, htick⟩ := hlast last (by simp)
  obtain ⟨t₀, ht₀, hsame₀, hpend₀⟩ := runEdges_releases hok hp hle hwake (by simpa using hpend) hn
  obtain ⟨t, ht, hsame, hpend'⟩ := samplesLead_frame (s := { s with phase := .resp, cnt := 0 }) hok rfl rfl hb hh0
    ⟨hal1, hal⟩ ⟨hah1, hah⟩ hlen hbits es t₀ (last :: later) hes hmap hsame₀ hpend₀
  obtain ⟨u, hu, hi⟩ := exec_check_phase (present last later t)
  have hrun : runEdges (wakeEs.length + es.length) s = .next t := by rw [runEdges_add, ht₀, andThen_next, ht]
  have hframe : t.sr = (bits.map fun p => decide (s.cfg.tBit < p.2)).foldl shiftIn 0 := by rw [hsame, hsr]
  refine ⟨t, u, hrun, ?same, fun n p hnp => ?bit, ?count, ?last, hi, hu⟩
  case same => rw [hframe, ← hsr]; exact hsame
  case bit => rw [hframe]; exact foldl_shiftIn_bit (by simpa using hlen) (by simp [hnp])
  case count =>
    have hcount : es.length = _ := (List.length_map _).symm.trans ((congrArg _ hmap).trans (frameSamples_length ..))
    rw [hcount, hn]
    omega
  case last =>
    rw [runEdges_add, hrun, andThen_next, runEdges_one, step_check hpend' hr hsame.phase_eq htick, hu]

end Sys2Proof.Machine

/-! ### 10_state.md section 1: who writes each element -/

namespace Sys2Proof.Machine

/-- The edge brings a `READ` that an idle block accepts (40_commands.md R96). -/
abbrev ReadAccepted (s : State) (e : Edge) (later : List Edge) : Prop :=
  s.phase = .idle ∧ Commands e .read ∧ gateOpen (present e later s) = true

/-- The edge brings a `SETUP` with a model's code to an idle block (40_commands.md R93). -/
abbrev SetupTaken (s : State) (e : Edge) : Prop :=
  s.phase = .idle ∧ ∃ k : SensorModel, Commands e (.setup (modelCode k))

/-! ### The sequencer -/

/-- After an accepted `READ` the tick of the edge moves `PHASE` and `CNT` only. -/
theorem tick_acceptRead (s : State) : ∃ (p : Phase) (c : Ticks),
    tick (acceptRead s) = .next { acceptRead s with phase := p, cnt := c } ∧ p ≠ .idle := by
  cases ht : s.port.tickEn with
  | false => exact ⟨.wake, 0, tick_none ht, by decide⟩
  | true =>
    have htick := tick_wake (s := acceptRead s) ht rfl
    split at htick
    · exact ⟨.resp, 0, htick, by decide⟩
    · exact ⟨.wake, 1, htick, by decide⟩

/-- Without a tick of a busy block nothing changes at the tick. -/
theorem tick_eq_self {s : State} (h : ¬ (s.port.tickEn = true ∧ s.phase ≠ .idle)) : tick s = .next s := by
  by_cases hp : s.phase = .idle
  · exact tick_idle hp
  · exact tick_none (by simpa [hp] using h)

theorem exec_check_cnt (s : State) : ∃ t, exec .check s = .next t ∧ t.cnt = s.cnt := by
  rcases exec_check_cases s with ⟨-, h⟩ | ⟨-, -, h⟩ | ⟨-, -, h⟩ <;> exact ⟨_, h, rfl⟩

/-- `PHASE` and `CNT` move by an accepted `READ` or by a tick of a busy block, at which `CHECK` keeps `CNT`. -/
theorem step_sequencer {s : State} {e : Edge} {later : List Edge} (h : s.pending = e :: later) (hr : e.rst = false) :
    ∃ t, step s = .next t ∧ ((t.phase = s.phase ∧ t.cnt = s.cnt) ∨ ReadAccepted s e later ∨
      (e.tickEn = true ∧ s.phase ≠ .idle ∧ (s.phase = .check → t.cnt = s.cnt))) := by
  rcases step_cases h hr with ⟨hp, hs⟩ | ⟨-, hs⟩ | ⟨-, k, -, hs⟩ | ⟨-, -, -, hs⟩ | ⟨hp, hc, hg, hs⟩
  · cases ht : e.tickEn with
    | false => exact ⟨_, hs.trans (tick_none ht), .inl ⟨rfl, rfl⟩⟩
    | true =>
      obtain ⟨t, htick⟩ := tick_next (present e later s)
      refine ⟨t, hs.trans htick, .inr (.inr ⟨rfl, hp, fun hcheck => ?_⟩)⟩
      obtain ⟨u, hu, hcnt⟩ := exec_check_cnt (present e later s)
      cases next_unique htick ((tick_check (s := present e later s) ht hcheck).trans hu)
      exact hcnt
  case inr.inr.inr.inr =>
    obtain ⟨p, c, htick, -⟩ := tick_acceptRead (present e later s)
    exact ⟨_, hs.trans htick, .inr (.inl ⟨hp, hc, hg⟩)⟩
  all_goals exact ⟨_, hs, .inl ⟨rfl, rfl⟩⟩

/-! ### The shift register -/

/-- `SR` and `BITCNT` move by an accepted `READ` or at the end of a pulse of `BITH`. -/
theorem step_shifts {s : State} {e : Edge} {later : List Edge} (h : s.pending = e :: later) (hr : e.rst = false) :
    ∃ t, step s = .next t ∧ ((t.sr = s.sr ∧ t.bitcnt = s.bitcnt) ∨ ReadAccepted s e later ∨
      (s.phase = .bith ∧ e.tickEn = true ∧ e.lineIn = false)) := by
  rcases step_cases h hr with ⟨-, hs⟩ | ⟨-, hs⟩ | ⟨-, k, -, hs⟩ | ⟨-, -, -, hs⟩ | ⟨hp, hc, hg, hs⟩
  · obtain ⟨t, ht, hkeep | ⟨hp, hte, hl, -⟩⟩ := tick_shifts (present e later s)
    · exact ⟨t, hs.trans ht, .inl hkeep⟩
    · exact ⟨t, hs.trans ht, .inr (.inr ⟨hp, hte, hl⟩)⟩
  case inr.inr.inr.inr =>
    obtain ⟨p, c, htick, -⟩ := tick_acceptRead (present e later s)
    exact ⟨_, hs.trans htick, .inr (.inl ⟨hp, hc, hg⟩)⟩
  all_goals exact ⟨_, hs, .inl ⟨rfl, rfl⟩⟩

/-! ### The status -/

/-- A tick writes `RSTAT` only where a transaction ends, and `None` only by a commit. -/
theorem tick_rstat (s : State) : ∃ t, tick s = .next t ∧ (t.rstat = s.rstat ∨
    (s.port.tickEn = true ∧ s.phase ≠ .idle ∧ t.phase = .idle ∧
      (t.rstat = .none → s.phase = .check ∧ s.port.tickEn = true ∧ checksumOk s.sr = true))) := by
  rcases tick_cases s with ⟨-, h⟩ | ⟨-, -, -, h⟩ | ⟨-, -, -, h⟩ | ⟨ht, l, b, hw, -, -, h⟩ | ⟨-, l, b, -, -, -, h⟩ |
    ⟨-, l, b, p, -, -, -, h⟩ | ⟨-, -, -, h⟩ | ⟨ht, hp, h⟩
  case inr.inr.inr.inl =>
    exact ⟨_, h, .inr ⟨ht, phase_ne_idle_of_waitsFor hw, rfl, fun hn => by simp [errorStatus] at hn⟩⟩
  case inr.inr.inr.inr.inr.inr.inr =>
    have hbusy : s.phase ≠ .idle := by simp [hp]
    rcases exec_check_cases s with ⟨-, hx⟩ | ⟨hc, -, hx⟩ | ⟨hc, -, hx⟩
    · exact ⟨_, h.trans hx, .inr ⟨ht, hbusy, rfl, fun hn => by simp [errorStatus] at hn⟩⟩
    · exact ⟨_, h.trans hx, .inr ⟨ht, hbusy, rfl, fun _ => ⟨hp, ht, hc⟩⟩⟩
    · exact ⟨_, h.trans hx, .inr ⟨ht, hbusy, rfl, fun _ => ⟨hp, ht, hc⟩⟩⟩
  all_goals exact ⟨_, h, .inl rfl⟩

theorem step_rstat {s : State} {e : Edge} {later : List Edge} (h : s.pending = e :: later) (hr : e.rst = false) :
    ∃ t, step s = .next t ∧ (t.rstat = s.rstat ∨
      (e.tickEn = true ∧ s.phase ≠ .idle ∧ t.phase = .idle ∧
        (t.rstat = .none → s.phase = .check ∧ e.tickEn = true ∧ checksumOk s.sr = true))) := by
  rcases step_cases h hr with ⟨-, hs⟩ | ⟨-, hs⟩ | ⟨-, k, -, hs⟩ | ⟨-, -, -, hs⟩ | ⟨-, -, -, hs⟩
  · rw [hs]
    exact tick_rstat (present e later s)
  case inr.inr.inr.inr =>
    obtain ⟨p, c, htick, -⟩ := tick_acceptRead (present e later s)
    exact ⟨_, hs.trans htick, .inl rfl⟩
  all_goals exact ⟨_, hs, .inl rfl⟩

/-! ### What the host's commands write -/

/-- `LAST_MS`, `SKIP` and `ARMED` are written by the commands alone: `ARMED` by a `SETUP`, `SKIP` by a passthrough, all
three by an accepted `READ`. -/
theorem step_hostFields {s : State} {e : Edge} {later : List Edge} (h : s.pending = e :: later) (hr : e.rst = false) :
    ∃ t, step s = .next t ∧
      ((t.lastMs = s.lastMs ∧ t.skip = s.skip ∧ t.armed = s.armed) ∨
      (SetupTaken s e ∧ t.lastMs = s.lastMs ∧ t.skip = s.skip ∧ t.armed = true) ∨
      (s.phase = .idle ∧ Commands e .read ∧ gateOpen (present e later s) = false ∧
        t.lastMs = s.lastMs ∧ t.skip = true ∧ t.armed = s.armed) ∨
      (ReadAccepted s e later ∧ t.lastMs = e.nowMs ∧ t.skip = false ∧ t.armed = false)) := by
  rcases step_cases h hr with ⟨-, hs⟩ | ⟨-, hs⟩ | ⟨hp, k, hc, hs⟩ | ⟨hp, hc, hg, hs⟩ | ⟨hp, hc, hg, hs⟩
  · obtain ⟨t, ht, hlast, hskip, harmed, -⟩ := tick_frame (present e later s)
    exact ⟨t, hs.trans ht, .inl ⟨hlast, hskip, harmed⟩⟩
  · exact ⟨_, hs, .inl ⟨rfl, rfl, rfl⟩⟩
  · exact ⟨_, hs, .inr (.inl ⟨⟨hp, k, hc⟩, rfl, rfl, rfl⟩)⟩
  · exact ⟨_, hs, .inr (.inr (.inl ⟨hp, hc, hg, rfl, rfl, rfl⟩))⟩
  · obtain ⟨p, c, htick, -⟩ := tick_acceptRead (present e later s)
    exact ⟨_, hs.trans htick, .inr (.inr (.inr ⟨⟨hp, hc, hg⟩, rfl, rfl, rfl⟩))⟩

/-- The table's clauses for `LAST_MS`, `SKIP` and `ARMED`. -/
theorem step_hostFields_changed {s : State} {e : Edge} {later : List Edge} (h : s.pending = e :: later)
    (hr : e.rst = false) : ∃ t, step s = .next t ∧
      (t.lastMs ≠ s.lastMs → ReadAccepted s e later ∧ t.lastMs = e.nowMs) ∧
      (t.skip ≠ s.skip → s.phase = .idle ∧ Commands e .read ∧ (t.skip = false ↔ ReadAccepted s e later)) ∧
      (t.armed ≠ s.armed → (t.armed = true ∧ SetupTaken s e) ∨ (t.armed = false ∧ ReadAccepted s e later)) := by
  obtain ⟨t, ht, hcases⟩ := step_hostFields h hr
  refine ⟨t, ht, ?_⟩
  rcases hcases with ⟨hl, hs, ha⟩ | ⟨hset, hl, hs, ha⟩ | ⟨hp, hc, hg, hl, hs, ha⟩ | ⟨⟨hp, hc, hg⟩, hl, hs, ha⟩
  · exact ⟨absurd hl, absurd hs, absurd ha⟩
  · exact ⟨absurd hl, absurd hs, fun _ => .inl ⟨ha, hset⟩⟩
  · exact ⟨absurd hl, fun _ => ⟨hp, hc, by simp [hs, hg]⟩, absurd ha⟩
  · exact ⟨fun _ => ⟨⟨hp, hc, hg⟩, hl⟩, fun _ => ⟨hp, hc, iff_of_true hs ⟨hp, hc, hg⟩⟩, fun _ => .inr ⟨ha, hp, hc, hg⟩⟩

/-- Settles O35: each element's clause is the lemma about it, all of the one step. -/
theorem eachElementIsWrittenOnlyByItsRules : Obligations.EachElementIsWrittenOnlyByItsRules := by
  intro s e later h hr readAccepted setupTaken commits hread hsetup hcommits
  obtain rfl := propext hread
  obtain rfl := propext hsetup
  obtain rfl := propext hcommits
  obtain ⟨t, ht, hsr⟩ := step_shifts h hr
  obtain ⟨t₁, ht₁, hcache⟩ := onlyCheckedFramesAreCached s e later h hr
  obtain ⟨t₂, ht₂, hseq⟩ := step_sequencer h hr
  obtain ⟨t₃, ht₃, hrstat⟩ := step_rstat h hr
  obtain ⟨t₄, ht₄, hmodel⟩ := step_model h hr
  obtain ⟨t₅, ht₅, hlast, hskip, harmed⟩ := step_hostFields_changed h hr
  cases next_unique ht₁ ht
  cases next_unique ht₂ ht
  cases next_unique ht₃ ht
  cases next_unique ht₄ ht
  cases next_unique ht₅ ht
  have hcommit (hne : t.frame ≠ s.frame ∨ t.hum ≠ s.hum ∨ t.temp ≠ s.temp ∨ t.valid ≠ s.valid) :
      s.phase = .check ∧ e.tickEn = true ∧ checksumOk s.sr = true := by
    obtain ⟨hp, hte, hc, -⟩ := hcache hne
    exact ⟨hp, hte, hc⟩
  refine ⟨t, ht, fun hne => hsr.resolve_left fun hk => hne hk.1, fun hne => hcommit (.inl hne),
    fun hne => hcommit (.inr (.inl hne)), fun hne => hcommit (.inr (.inr (.inl hne))), fun hne => ?cnt, hlast,
    fun hne => ?phase, fun hne => hsr.resolve_left fun hk => hne hk.2, fun hne => hrstat.resolve_left hne,
    fun hne => ?model, hskip, harmed, fun hne => hcommit (.inr (.inr (.inr hne)))⟩
  case cnt =>
    rcases hseq with ⟨-, hc⟩ | hread | ⟨hte, hp, hcheck⟩
    · exact absurd hc hne
    · exact .inl hread
    · exact .inr ⟨hte, hp, fun hc => hne (hcheck hc)⟩
  case phase =>
    rcases hseq with ⟨hp, -⟩ | hread | ⟨hte, hp, -⟩
    · exact absurd hp hne
    · exact .inl hread
    · exact .inr ⟨hte, hp⟩
  case model =>
    rcases hmodel.resolve_left hne with hset | ⟨hm, hcommits⟩
    · exact .inl hset
    · exact .inr ⟨hcommits, hm⟩

end Sys2Proof.Machine

/-! ### 60_exceptions.md section 2: the rate limit after a transaction -/

namespace Sys2Proof.Machine

/-- The edge starts nothing in `u`: no `SETUP` takes effect, and a `READ` finds the gate closed. -/
abbrev StartsNothing (d : Edge) (u : State) : Prop :=
  (∀ m : SensorModel, ¬ Commands d (.setup (modelCode m))) ∧ (Commands d .read → gateOpen { u with port := d } = false)

/-- An unarmed block stays so, with its time stamp, over an edge that starts nothing. -/
theorem step_keeps_stamp {s : State} {e : Edge} {later : List Edge} (h : s.pending = e :: later) (hr : e.rst = false)
    (ha : s.armed = false) (hno : s.phase = .idle → StartsNothing e s) :
    ∃ t, step s = .next t ∧ t.armed = false ∧ t.lastMs = s.lastMs := by
  obtain ⟨t, ht, ⟨hl, -, hta⟩ | ⟨⟨hp, k, hc⟩, -⟩ | ⟨-, -, -, hl, -, hta⟩ | ⟨⟨hp, hc, hg⟩, -⟩⟩ := step_hostFields h hr
  · exact ⟨t, ht, hta.trans ha, hl⟩
  · exact absurd hc ((hno hp).1 k)
  · exact ⟨t, ht, hta.trans ha, hl⟩
  · exact absurd (hg.symm.trans ((hno hp).2 hc)) (by decide)

/-- So does it over a run of such edges. -/
theorem runEdges_keeps_stamp {s t : State} {es later : List Edge} (ha : s.armed = false) (hr : ∀ d ∈ es, d.rst = false)
    (h : s.pending = es ++ later)
    (hno : ∀ (k : Nat) (d : Edge) (u : State), es[k]? = some d → runEdges k s = .next u → u.phase = .idle →
      StartsNothing d u)
    (ht : runEdges es.length s = .next t) : t.armed = false ∧ t.lastMs = s.lastMs ∧ t.pending = later := by
  induction es generalizing s with
  | nil =>
    cases next_unique ht (runEdges_zero s)
    exact ⟨ha, rfl, h⟩
  | cons e es ih =>
    obtain ⟨hre, hres⟩ := List.forall_mem_cons.1 hr
    obtain ⟨u, hu, hua, hul⟩ := step_keeps_stamp h hre ha (hno 0 e s rfl rfl)
    obtain ⟨v, hv, -, hpend⟩ := step_consumes s
    cases next_unique hv hu
    have hrun (k : Nat) : runEdges (k + 1) s = runEdges k u := by rw [runEdges_succ, hu, andThen_next]
    obtain ⟨hta, htl, htp⟩ := ih hua hres (by rw [hpend, h]; rfl)
      (fun k d w hd hw => hno (k + 1) d w hd ((hrun k).trans hw)) ((hrun es.length).symm.trans ht)
    exact ⟨hta, htl.trans hul, htp⟩

/-- Settles O32: the stamp of the accepted `READ` stands until the next, and an unarmed block's gate asks it alone. -/
theorem failedTransactionsStillRateLimit : Obligations.FailedTransactionsStillRateLimit := by
  intro s es later e t ha hr h hno ht hp hc
  obtain ⟨hta, htl, hpend⟩ := runEdges_keeps_stamp ha hr h hno ht
  have hgate : gateOpen (present e later t) = true ↔ minPeriod t.cfg t.model ≤ (e.nowMs - s.lastMs).toNat := by
    simp [gateOpen_eq_true, hta, htl]
  refine ⟨fun hlt => ?passed, fun hle => ?accepted⟩
  case passed =>
    have hclosed : gateOpen (present e later t) = false := Bool.eq_false_iff.2 fun hg => hlt.not_ge (hgate.1 hg)
    refine ⟨passRead (present e later t), ?_, rfl, hp, htl⟩
    rw [step_command hpend hc, exec_read_passed (s := present e later t) hp hclosed, andThen_next]
    exact tick_idle hp
  case accepted =>
    obtain ⟨p, c, htick, hbusy⟩ := tick_acceptRead (present e later t)
    exact ⟨_, (step_read_accepted hp hpend hc (hgate.2 hle)).trans htick, hbusy, rfl, rfl⟩

end Sys2Proof.Machine

/-! ### 10_state.md section 5: what `SR` and `CNT` hold in `IDLE` -/

namespace Sys2Proof.Machine

/-- `s` with other leftovers in `SR` and `CNT`. -/
def State.withLeftovers (sr : Frame) (cnt : Ticks) (s : State) : State := { s with sr := sr, cnt := cnt }

/-- Run from a state and from the same with other leftovers, `f` answers one state, or an idle one and the same with
those leftovers. -/
def LeftoversUnseen (sr : Frame) (cnt : Ticks) (f : State → Host.Outcome State Fault Refusal) (s : State) : Prop :=
  ∃ t, f s = .next t ∧
    (f (s.withLeftovers sr cnt) = .next t ∨
      (t.phase = .idle ∧ f (s.withLeftovers sr cnt) = .next (t.withLeftovers sr cnt)))

section Leftovers

variable {sr : Frame} {cnt : Ticks} {s : State}

/-- One operation after the other: where the first met, the second goes on from one state. -/
theorem LeftoversUnseen.andThen {f g : State → Host.Outcome State Fault Refusal} (hf : LeftoversUnseen sr cnt f s)
    (hnext : ∀ u, ∃ t, g u = .next t) (hg : ∀ u : State, u.phase = .idle → LeftoversUnseen sr cnt g u) :
    LeftoversUnseen sr cnt (fun x => Machine.andThen (f x) g) s := by
  obtain ⟨u, hu, hu' | ⟨hi, hu'⟩⟩ := hf <;> simp only [LeftoversUnseen, hu, hu', andThen_next]
  · obtain ⟨t, ht⟩ := hnext u
    exact ⟨t, ht, .inl ht⟩
  · exact hg u hi

/-- The host sees none of the leftovers: `rdata` answers the same. -/
theorem present_withLeftovers (sr : Frame) (cnt : Ticks) (e : Edge) (later : List Edge) (s : State) :
    present e later (s.withLeftovers sr cnt) = (present e later s).withLeftovers sr cnt := rfl

/-- A command sees none of the leftovers: a `SETUP` and a passthrough leave them, an accepted `READ` clears them. -/
theorem exec_command_leftovers {e : Edge} {i : Instr} (hp : s.phase = .idle) (hc : Commands e i) :
    LeftoversUnseen sr cnt (exec i) s := by
  have hp' : (s.withLeftovers sr cnt).phase = .idle := hp
  cases i with
  | nop => exact ⟨s, rfl, .inr ⟨hp, rfl⟩⟩
  | setup m =>
    cases hm : modelOfCode m with
    | none => exact ⟨s, by simp [exec, execSetup, whenIdle, hm], .inr ⟨hp, by simp [exec, execSetup, whenIdle, hm]⟩⟩
    | some k =>
      obtain rfl := modelOfCode_eq_some hm
      exact ⟨_, exec_setup_code k hp, .inr ⟨hp, exec_setup_code k hp'⟩⟩
  | read =>
    cases hg : gateOpen s with
    | true => exact ⟨_, exec_read_accepted hp hg, .inl (exec_read_accepted hp' hg)⟩
    | false => exact ⟨_, exec_read_passed hp hg, .inr ⟨hp, exec_read_passed hp' hg⟩⟩
  | idle | wake | resp | ackl | ackh | bitl | bith | check =>
    obtain ⟨-, -, hd⟩ := hc
    exact nomatch encode_of_decode_command hd

theorem busAccess_leftovers (hr : s.port.rst = false) (hp : s.phase = .idle) :
    LeftoversUnseen sr cnt busAccess s := by
  by_cases hc : ∃ i, Commands s.port i
  · obtain ⟨i, hc⟩ := hc
    rw [LeftoversUnseen, busAccess_command hc, busAccess_command (s := s.withLeftovers sr cnt) hc]
    exact exec_command_leftovers hp hc
  · have hno := not_exists.1 hc
    exact ⟨s, busAccess_noCommand hr hno, .inr ⟨hp, busAccess_noCommand (s := s.withLeftovers sr cnt) hr hno⟩⟩

theorem tick_leftovers (s : State) (hp : s.phase = .idle) : LeftoversUnseen sr cnt tick s :=
  ⟨s, tick_idle hp, .inr ⟨hp, tick_idle hp⟩⟩

theorem step_leftovers (hp : s.phase = .idle) : LeftoversUnseen sr cnt step s := by
  cases h : s.pending with
  | nil => exact ⟨s, step_nil h, .inr ⟨hp, step_nil h⟩⟩
  | cons e later =>
    have h' : (s.withLeftovers sr cnt).pending = e :: later := h
    cases hr : e.rst with
    | true => exact ⟨_, step_reset h hr, .inl (step_reset h' hr)⟩
    | false =>
      rw [LeftoversUnseen, step_run h hr, step_run h' hr, present_withLeftovers]
      exact (busAccess_leftovers (s := present e later s) hr hp).andThen tick_next tick_leftovers

theorem runEdges_leftovers (k : Nat) (hp : s.phase = .idle) : LeftoversUnseen sr cnt (runEdges k) s := by
  induction k generalizing s with
  | zero => exact ⟨s, rfl, .inr ⟨hp, rfl⟩⟩
  | succ k ih =>
    exact (step_leftovers hp).andThen (runEdges_next k) fun _ => ih

end Leftovers

/-- Settles O40: the two runs meet, or both are idle and differ in the leftovers alone, which neither the window nor an
output shows. -/
theorem leftoverRegistersAreNeverSeen : Obligations.LeftoverRegistersAreNeverSeen := by
  intro s sr cnt k hp
  obtain ⟨t, ht, hu | ⟨hi, hu⟩⟩ := runEdges_leftovers (sr := sr) (cnt := cnt) k hp
  · exact ⟨t, t, ht, hu, rfl, fun _ => rfl, ⟨rfl, rfl, rfl, rfl⟩, fun _ => rfl⟩
  · exact ⟨t, t.withLeftovers sr cnt, ht, hu, rfl, fun _ => rfl, ⟨rfl, rfl, rfl, rfl⟩, fun hne => absurd hi hne⟩

end Sys2Proof.Machine
